-- ==== Sys2Proof/Word.lean ====
section
/-! DEFINITION. The word types of the block (00_scope.md rule R10) and the plain form of a byte memory. -/

namespace Sys2Proof

/-- FIFO elements, I2C data bytes, EEPROM bytes and BUF bytes: 8 bits (R10). -/
abbrev Byte := BitVec 8

/-- RES.data and the CSR registers: 16 bits (R10, R55). -/
abbrev Half := BitVec 16

/-- The command word: 32 bits (R10, R100). -/
abbrev Word := BitVec 32

/-- The contents of one address space of R70: address and byte pairs in one canonical form
(`Sys2Proof.Machine.Mem.Wf`), the addresses strictly rising and no entry equal to what an unlisted
address of that space reads as. -/
abbrev Memory := List Host.Cell

end Sys2Proof
end

