-- ==== Sys2Proof/Syntax.lean ====
section
/-! DEFINITION. The 31 operations of 30_encoding.md rule R102, one constructor per row of the opcode table. -/

namespace Sys2Proof

/-- The queue selected by the Q field: 0 = RX, 1 = TX (R36, R104). -/
inductive QueueId where
  | rx
  | tx
  deriving DecidableEq, Repr

/-- A bus direction, the RW field and I2C.dir: 0 = write, 1 = read (R48, R104). -/
inductive Dir where
  | write
  | read
  deriving DecidableEq, Repr

/-- One operation with its operands. Every operand is an unsigned integer (R104). Indexes, addresses and
counts are natural numbers, because the rules compute with them without wrap-around (R12, R219), and
`WellFormed` says they fit their fields. Data bytes, masks and bus addresses are the bits themselves. -/
inductive Instr where
  /-- R230 -/
  | nop
  /-- R231: CSR index IDX, 8 bits -/
  | csrRead (idx : Nat)
  /-- R233 -/
  | ctrlReset
  /-- R121 -/
  | fifoPushWait (q : QueueId) (d : Byte)
  /-- R122 -/
  | fifoPushDrop (q : QueueId) (d : Byte)
  /-- R126 -/
  | fifoPop (q : QueueId)
  /-- R127 -/
  | fifoCount (q : QueueId)
  /-- R132 -/
  | rxIngress (d : Byte)
  /-- R135: the Q field is fixed at 1 (TX) -/
  | txEgress
  /-- R151 -/
  | execRaise (m : BitVec 7)
  /-- R152 -/
  | execClear (m : BitVec 7)
  /-- R153 -/
  | execRead
  /-- R154 -/
  | alarmRaise (m : BitVec 6)
  /-- R155 -/
  | alarmClear
  /-- R156 -/
  | alarmRead
  /-- R163 -/
  | dispatchPeek
  /-- R164 -/
  | dispatchTake
  /-- R173 -/
  | i2cStart (a : BitVec 7) (rw : Dir)
  /-- R174 -/
  | i2cRestart (a : BitVec 7) (rw : Dir)
  /-- R175 -/
  | i2cWrite (d : Byte)
  /-- R176 -/
  | i2cReadAck
  /-- R177 -/
  | i2cReadNack
  /-- R178 -/
  | i2cStop
  /-- R180: COUNT n, 8 bits -/
  | i2cWriteReg (a : BitVec 7) (reg : Byte) (n : Nat)
  /-- R181: COUNT n, 8 bits -/
  | i2cReadReg (a : BitVec 7) (reg : Byte) (n : Nat)
  /-- R203: ADDR16 a, 16 bits -/
  | eeGet (a : Nat)
  /-- R204: ADDR16 a, 16 bits -/
  | eePut (a : Nat) (v : Byte)
  /-- R212: ADDR16 a, 16 bits, and LEN, 8 bits -/
  | eeWriteBlock (a : Nat) (len : Nat)
  /-- R213: ADDR16 a, 16 bits, and LEN, 8 bits -/
  | eeReadBlock (a : Nat) (len : Nat)
  /-- R235: IDX, 8 bits -/
  | bufWrite (idx : Nat) (d : Byte)
  /-- R236: IDX, 8 bits -/
  | bufRead (idx : Nat)
  deriving DecidableEq, Repr

end Sys2Proof
end

