-- ==== Sys2Proof/WellFormed.lean ====
section
/-! DEFINITION. Which terms of `Instr` are operations of the block: every operand fits its field (30_encoding.md
rules R103 and R104). R114 calls an operand that does not fit an error of the assembler, not a truncation.
A form the port table refuses is still well formed (R106), and so is a form that finishes with ERR_ARG or
ERR_RANGE. -/

namespace Sys2Proof

/-- An 8-bit operand field holds 0 to 255 (R103: IDX, COUNT, LEN). -/
def fitsByte (n : Nat) : Bool := decide (n < 256)

/-- The 16-bit operand field ADDR16 holds 0 to 65535 (R103). -/
def fitsAddr16 (n : Nat) : Bool := decide (n < 65536)

/-- Every operand of the operation fits the field its format gives it (R103). -/
def WellFormed : Instr → Bool
  | .nop => true
  | .csrRead idx => fitsByte idx
  | .ctrlReset => true
  | .fifoPushWait _ _ => true
  | .fifoPushDrop _ _ => true
  | .fifoPop _ => true
  | .fifoCount _ => true
  | .rxIngress _ => true
  | .txEgress => true
  | .execRaise _ => true
  | .execClear _ => true
  | .execRead => true
  | .alarmRaise _ => true
  | .alarmClear => true
  | .alarmRead => true
  | .dispatchPeek => true
  | .dispatchTake => true
  | .i2cStart _ _ => true
  | .i2cRestart _ _ => true
  | .i2cWrite _ => true
  | .i2cReadAck => true
  | .i2cReadNack => true
  | .i2cStop => true
  | .i2cWriteReg _ _ n => fitsByte n
  | .i2cReadReg _ _ n => fitsByte n
  | .eeGet a => fitsAddr16 a
  | .eePut a _ => fitsAddr16 a
  | .eeWriteBlock a len => fitsAddr16 a && fitsByte len
  | .eeReadBlock a len => fitsAddr16 a && fitsByte len
  | .bufWrite idx _ => fitsByte idx
  | .bufRead idx => fitsByte idx

end Sys2Proof
end

