-- ==== Sys2Proof/Decode.lean ====
section
/-! DEFINITION. The decoder (30_encoding.md rules R100 to R113) and, after it, the encoder (R102, R103, R114).
A command is one 32-bit word, transferred whole and without a byte order (R75, R100). -/

namespace Sys2Proof

/-- `word[hi:lo]` as an unsigned integer of `n = hi - lo + 1` bits (R11, R104). -/
def field (w : Word) (lo n : Nat) : BitVec n := w.extractLsb' lo n

/-- The Q field, bit 23 (R103, R104). -/
def fieldQ (w : Word) : QueueId := if w.getLsbD 23 then .tx else .rx

/-- The RW field, bit 16 (R103, R104). -/
def fieldRW (w : Word) : Dir := if w.getLsbD 16 then .read else .write

/-- One row of the opcode map R102: the word with every field zero, a 1 at every bit that must equal it, and
the operation with its fields read from a word (R104). -/
structure Row where
  mtch : Word
  mask : Word
  build : Word → Instr

/-- The CTRL rows of R102. -/
def rowsCtrl : List Row :=
  [⟨0x01000000, 0xFFFFFFFF, fun _ => .nop⟩,
   ⟨0x02000000, 0xFFFFFF00, fun w => .csrRead (field w 0 8).toNat⟩,
   ⟨0x03000000, 0xFFFFFFFF, fun _ => .ctrlReset⟩]

/-- The FIFO rows of R102. -/
def rowsFifo : List Row :=
  [⟨0x11000000, 0xFF7FFF00, fun w => .fifoPushWait (fieldQ w) (field w 0 8)⟩,
   ⟨0x12000000, 0xFF7FFF00, fun w => .fifoPushDrop (fieldQ w) (field w 0 8)⟩,
   ⟨0x13000000, 0xFF7FFFFF, fun w => .fifoPop (fieldQ w)⟩,
   ⟨0x14000000, 0xFF7FFFFF, fun w => .fifoCount (fieldQ w)⟩,
   ⟨0x15000000, 0xFFFFFF00, fun w => .rxIngress (field w 0 8)⟩,
   ⟨0x16800000, 0xFFFFFFFF, fun _ => .txEgress⟩]

/-- The FLAG rows of R102. -/
def rowsFlag : List Row :=
  [⟨0x21000000, 0xFFFFFF80, fun w => .execRaise (field w 0 7)⟩,
   ⟨0x22000000, 0xFFFFFF80, fun w => .execClear (field w 0 7)⟩,
   ⟨0x23000000, 0xFFFFFFFF, fun _ => .execRead⟩,
   ⟨0x24000000, 0xFFFFFFC0, fun w => .alarmRaise (field w 0 6)⟩,
   ⟨0x25000000, 0xFFFFFFFF, fun _ => .alarmClear⟩,
   ⟨0x26000000, 0xFFFFFFFF, fun _ => .alarmRead⟩,
   ⟨0x27000000, 0xFFFFFFFF, fun _ => .dispatchPeek⟩,
   ⟨0x28000000, 0xFFFFFFFF, fun _ => .dispatchTake⟩]

/-- The I2C rows of R102. -/
def rowsI2c : List Row :=
  [⟨0x31000000, 0xFF00FFFF, fun w => .i2cStart (field w 17 7) (fieldRW w)⟩,
   ⟨0x32000000, 0xFF00FFFF, fun w => .i2cRestart (field w 17 7) (fieldRW w)⟩,
   ⟨0x33000000, 0xFFFFFF00, fun w => .i2cWrite (field w 0 8)⟩,
   ⟨0x34000000, 0xFFFFFFFF, fun _ => .i2cReadAck⟩,
   ⟨0x35000000, 0xFFFFFFFF, fun _ => .i2cReadNack⟩,
   ⟨0x36000000, 0xFFFFFFFF, fun _ => .i2cStop⟩,
   ⟨0x37000000, 0xFF010000, fun w => .i2cWriteReg (field w 17 7) (field w 8 8) (field w 0 8).toNat⟩,
   ⟨0x38000000, 0xFF010000, fun w => .i2cReadReg (field w 17 7) (field w 8 8) (field w 0 8).toNat⟩]

/-- The EE rows of R102. -/
def rowsEe : List Row :=
  [⟨0x41000000, 0xFF0000FF, fun w => .eeGet (field w 8 16).toNat⟩,
   ⟨0x42000000, 0xFF000000, fun w => .eePut (field w 8 16).toNat (field w 0 8)⟩,
   ⟨0x43000000, 0xFF000000, fun w => .eeWriteBlock (field w 8 16).toNat (field w 0 8).toNat⟩,
   ⟨0x44000000, 0xFF000000, fun w => .eeReadBlock (field w 8 16).toNat (field w 0 8).toNat⟩]

/-- The BUF rows of R102. -/
def rowsBuf : List Row :=
  [⟨0x51000000, 0xFFFF0000, fun w => .bufWrite (field w 8 8).toNat (field w 0 8)⟩,
   ⟨0x52000000, 0xFFFF00FF, fun w => .bufRead (field w 8 8).toNat⟩]

/-- The opcode map R102, all 31 rows in its order. -/
def rows : List Row := rowsCtrl ++ rowsFifo ++ rowsFlag ++ rowsI2c ++ rowsEe ++ rowsBuf

/-- A word encodes the row's operation (R102). -/
def Row.hits (w : Word) (r : Row) : Bool := (w &&& r.mask) == r.mtch

/-- `decode(w)` of R105: the first row the word matches, or ILLEGAL (`none`). -/
def decode (w : Word) : Option Instr := (rows.find? (Row.hits w)).map (fun r => r.build w)

/-- Why a word is ILLEGAL (R111, R112). The block reports one status, ERR_ILLEGAL, for all three. -/
inductive Illegal where
  /-- UNIT 0x6 to 0xF (R112, R113) -/
  | unassignedUnit
  /-- an OP no row of an assigned unit has (R112) -/
  | unassignedOp
  /-- the unit and operation of a row, with a bit set that its format reserves, or TX_EGRESS with Q = 0 (R111, R112) -/
  | reservedBits
  deriving DecidableEq, Repr

/-- The decoder with the reason of each rejection named. -/
def decodeOrReason (w : Word) : Except Illegal Instr :=
  match decode w with
  | some i => .ok i
  | none =>
    if 5 < (field w 28 4).toNat then .error .unassignedUnit
    else if rows.any (fun r => field r.mtch 24 8 == field w 24 8) then .error .reservedBits
    else .error .unassignedOp

/-- The decoder on a word numbered as spec/opcode_table.json numbers it. A command is one 32-bit word, so there
is nothing longer to read and no byte order to lay out (R75, R100). -/
def decodeTableWord (nbits w : Nat) : Option Instr :=
  if nbits ≤ 32 then decode (BitVec.ofNat 32 (w % 2 ^ nbits)) else none

/-- The Q bit in its place (R103, R114: `q<<23`). -/
def placeQ : QueueId → Word
  | .rx => 0x00000000
  | .tx => 0x00800000

/-- The RW bit in its place (R103, R114: `rw<<16`). -/
def placeRW : Dir → Word
  | .write => 0x00000000
  | .read => 0x00010000

/-- An operand of the given bits shifted to its place (R114). -/
def place {n : Nat} (v : BitVec n) (lo : Nat) : Word := v.setWidth 32 <<< lo

/-- The word of an operation, from R102, R103 and R114. -/
def encode : Instr → Word
  | .nop => 0x01000000
  | .csrRead idx => 0x02000000 ||| place (BitVec.ofNat 8 idx) 0
  | .ctrlReset => 0x03000000
  | .fifoPushWait q d => 0x11000000 ||| placeQ q ||| place d 0
  | .fifoPushDrop q d => 0x12000000 ||| placeQ q ||| place d 0
  | .fifoPop q => 0x13000000 ||| placeQ q
  | .fifoCount q => 0x14000000 ||| placeQ q
  | .rxIngress d => 0x15000000 ||| place d 0
  | .txEgress => 0x16800000
  | .execRaise m => 0x21000000 ||| place m 0
  | .execClear m => 0x22000000 ||| place m 0
  | .execRead => 0x23000000
  | .alarmRaise m => 0x24000000 ||| place m 0
  | .alarmClear => 0x25000000
  | .alarmRead => 0x26000000
  | .dispatchPeek => 0x27000000
  | .dispatchTake => 0x28000000
  | .i2cStart a rw => 0x31000000 ||| place a 17 ||| placeRW rw
  | .i2cRestart a rw => 0x32000000 ||| place a 17 ||| placeRW rw
  | .i2cWrite d => 0x33000000 ||| place d 0
  | .i2cReadAck => 0x34000000
  | .i2cReadNack => 0x35000000
  | .i2cStop => 0x36000000
  | .i2cWriteReg a reg n => 0x37000000 ||| place a 17 ||| place reg 8 ||| place (BitVec.ofNat 8 n) 0
  | .i2cReadReg a reg n => 0x38000000 ||| place a 17 ||| place reg 8 ||| place (BitVec.ofNat 8 n) 0
  | .eeGet a => 0x41000000 ||| place (BitVec.ofNat 16 a) 8
  | .eePut a v => 0x42000000 ||| place (BitVec.ofNat 16 a) 8 ||| place v 0
  | .eeWriteBlock a len => 0x43000000 ||| place (BitVec.ofNat 16 a) 8 ||| place (BitVec.ofNat 8 len) 0
  | .eeReadBlock a len => 0x44000000 ||| place (BitVec.ofNat 16 a) 8 ||| place (BitVec.ofNat 8 len) 0
  | .bufWrite idx d => 0x51000000 ||| place (BitVec.ofNat 8 idx) 8 ||| place d 0
  | .bufRead idx => 0x52000000 ||| place (BitVec.ofNat 8 idx) 8

end Sys2Proof
end

