-- ==== Sys2Proof/Config.lean ====
section
/-! DEFINITION. The implementation parameters of 00_scope.md rule R9, the fixed values beside them, and the free
values the spec leaves open. A parameter is no constant of Lean: State carries one `Params` record that no step
changes (R8: a model takes the parameters as arguments), so a statement about every state is a statement about
every value of the parameters. -/

namespace Sys2Proof

/-- The seven causes of EXEC, in the order of their bits (10_state.md rule R45). -/
inductive ExecCause where
  | statusReport
  | cycleStart
  | cycleStop
  | feedHold
  | reset
  | safetyDoor
  | motionCancel
  deriving DecidableEq, Repr

/-- CKSUM_COMBINE (R9, 43_eeprom.md rule R210). -/
inductive CksumCombine where
  | rotate
  | logicalOr
  deriving DecidableEq, Repr

/-- The parameters of R9, and one of the model's own. They are fixed before power-on and never change (70_reset_and_hazards.md rule R274). -/
structure Params where
  /-- C_RX, 2 to 256 -/
  cRx : Nat
  /-- C_TX, 2 to 256 -/
  cTx : Nat
  /-- FC_ENABLE -/
  fcEnable : Bool
  /-- RX_HIGH, RX_LOW to C_RX - 1 -/
  rxHigh : Nat
  /-- RX_LOW, 1 to RX_HIGH -/
  rxLow : Nat
  /-- XON_CHAR -/
  xonChar : Byte
  /-- XOFF_CHAR -/
  xoffChar : Byte
  /-- RT_TABLE, a partial map from bytes to EXEC causes (10_state.md rule R44) -/
  rtTable : List (Byte × ExecCause)
  /-- EE_SIZE, 1 to 65536 -/
  eeSize : Nat
  /-- EE_INIT, the non-volatile contents at power-on; an unlisted address is erased (0xFF, R52) -/
  eeInit : Memory
  /-- CKSUM_COMBINE -/
  cksum : CksumCombine
  /-- T_PROG, in any unit: no rule depends on it -/
  tProg : Nat
  /-- F_SCL in Hz: no rule depends on it -/
  fScl : Nat
  /-- MODEL, no parameter of R9: I2C_START and I2C_RESTART are one atomic transition, as 20_memory.md rule R79 and decision
  D3 have it. The machine of `State.reset` is that one. The value false is the count of 42_i2c.md rule R185 and
  70_reset_and_hazards.md rule R288, which take the two bus phases apart (assumption log 23). DESIGN CHOICE -/
  startAtomic : Bool
  deriving DecidableEq, Repr

namespace Config

/-- EMPTY_SENTINEL (R9, decision D10). -/
def emptySentinel : Half := 0x00FF

/-- BUF_SIZE (R9, decision D32). -/
def bufSize : Nat := 256

/-- I2C_TIMEOUT is none (R9, decision D25): no bus phase ends without an answer. -/
def i2cTimeout : Option Nat := none

/-- The default parameters of 95_test_vectors.md, with the example RT_TABLE of decision D12, the conventional
XON and XOFF characters (R9) and the marks of its flow-control vectors. They are the parameters of
`State.reset` only (assumption log 1). DESIGN CHOICE -/
def defaults : Params where
  cRx := 8
  cTx := 8
  fcEnable := false
  rxHigh := 6
  rxLow := 2
  xonChar := 0x11
  xoffChar := 0x13
  rtTable := [(0x3F, .statusReport), (0x7E, .cycleStart), (0x21, .feedHold), (0x18, .reset)]
  eeSize := 256
  eeInit := []
  cksum := .rotate
  tProg := 0
  fScl := 100000
  startAtomic := true

/-- The free value of a BUF byte that nothing has written: any byte, a fresh draw at each read (10_state.md rule
R53, 93_implementation_defined.md U2). State counts the draws (`State.draws`). -/
opaque freeByte : Nat → Byte

end Config

end Sys2Proof
end

