-- ==== Sys2Proof/Machine/State.lean ====
section
/-! DEFINITION. The state of LSG-RTB (10_state.md), plain data throughout, and its value after power-on reset. Below
the block's own state stand the model's fields: what the agents outside the block are about to do
(70_reset_and_hazards.md rule R276), held as data so that one step is a function of the state (assumption log
2 to 5). -/

namespace Sys2Proof.Machine

/-- The issuing ports (R30). -/
inductive Port where
  | main
  | rxi
  | txi
  | ext
  deriving DecidableEq, Repr

/-- The agents that take transitions: the four issuing agents and the EEPROM array EEA, whose step is EE_DONE
(R30). I2T and SL act inside the transitions of MAIN, RXI and TXI (R171, R276). -/
inductive Agent where
  | port (p : Port)
  | eea
  deriving DecidableEq, Repr

/-- One value for each issuing port. -/
structure PerPort (α : Type) where
  main : α
  rxi : α
  txi : α
  ext : α
  deriving DecidableEq, Repr

/-- RES[p] (R32). -/
structure Result where
  status : BitVec 8
  data : Half
  deriving DecidableEq, Repr

/-- The byte address spaces of 20_memory.md rule R70. The fifth space, CSR, is read-only and has 16-bit
registers (`Sys2Proof.Machine.csr`). -/
inductive Space where
  | rxmem
  | txmem
  | eemem
  | bufmem
  deriving DecidableEq, Repr

/-- FC_STATE (R43): the codes 0 to 3 in this order. -/
inductive FcState where
  | xonSent
  | sendXoff
  | xoffSent
  | sendXon
  deriving DecidableEq, Repr

/-- I2C.phase (R48): the codes 0 to 4 in this order. Codes 5 to 7 never occur. -/
inductive Phase where
  | idle
  | started
  | addressSent
  | dataPhase
  | stopped
  deriving DecidableEq, Repr

/-- Bus status codes BS (R50): the codes 0 to 13 in this order. -/
inductive BusStatus where
  | none
  | start
  | repStart
  | addrWAck
  | addrWNack
  | addrRAck
  | addrRNack
  | dataWAck
  | dataWNack
  | dataRAck
  | dataRNack
  | arbLost
  | busError
  | stop
  deriving DecidableEq, Repr

/-- Program modes (R52): the codes 0 to 3 in this order. -/
inductive Mode where
  | none
  | eraseWrite
  | eraseOnly
  | writeOnly
  deriving DecidableEq, Repr

/-- The answers to a start or repeated start (42_i2c.md rule R171). -/
inductive StartAnswer where
  | ok
  | lost
  | berr
  deriving DecidableEq, Repr

/-- The answers to an address byte or a written data byte (R171). -/
inductive ByteAnswer where
  | ack
  | nack
  | lost
  | berr
  deriving DecidableEq, Repr

/-- What the master returns on a read: ACK or NACK (R171). -/
inductive ReadReply where
  | ack
  | nack
  deriving DecidableEq, Repr

/-- One answer of the I2C target agent I2T (R171). Each bus phase has its own set among these. -/
inductive BusAnswer where
  | ok
  | ack
  | nack
  | lost
  | berr
  | byte (b : Byte)
  | done
  deriving DecidableEq, Repr

/-- The events of BUS_LOG (R54). -/
inductive BusEvent where
  | s
  | sr
  | sf (bs : BusStatus)
  | a (b : Byte) (r : ByteAnswer)
  | w (b : Byte) (r : ByteAnswer)
  | r (b : Byte) (m : ReadReply)
  | p
  deriving DecidableEq, Repr

/-- An entry of EE_LOG: (addr, mode, old, new) (R54). -/
structure EeCycle where
  addr : BitVec 16
  mode : Mode
  old : Byte
  new : Byte
  deriving DecidableEq, Repr

/-- EE.pend, the in-flight program cycle (R51). -/
structure EePend where
  addr : BitVec 16
  mode : Mode
  value : Byte
  deriving DecidableEq, Repr

/-- Which transition of its operation a port takes next, with the operation's local values (R34). -/
inductive Stage where
  /-- the first transition: the operation holds and has not started -/
  | start
  /-- the address byte of the first start (42_i2c.md rule R185) -/
  | addr
  /-- the register byte of a composite (R180, R181) -/
  | reg
  /-- the repeated start of I2C_READ_REG (R181) -/
  | restart
  /-- the read-address byte of I2C_READ_REG (R181) -/
  | raddr
  /-- data byte `i` of an I2C composite of COUNT n; with i = n, its stop after success (R180, R181) -/
  | data (i : Nat)
  /-- the stop of an I2C composite after a failed phase (R180, R181) -/
  | abort
  /-- byte `i` of an EE block of LEN len with running checksum `c`; with i = len, its trailer (R212, R213) -/
  | block (i : Nat) (c : Byte)
  deriving DecidableEq, Repr

/-- PEND[p] when it is not `none` (R34): the command word being executed and its next transition. -/
structure Pending where
  word : Word
  stage : Stage
  deriving DecidableEq, Repr

/-- A ring buffer (R36). -/
structure Queue where
  /-- Q.mem; an unlisted slot reads as 0 (assumption log 7) -/
  mem : Memory
  /-- Q.head, the next write slot -/
  head : Byte
  /-- Q.tail, the next read slot -/
  tail : Byte
  deriving DecidableEq, Repr

/-- The FIFO unit (R36, R42, R43). -/
structure FifoUnit where
  rx : Queue
  tx : Queue
  /-- RX_OVF -/
  rxOvf : Bool
  /-- FC_STATE -/
  fc : FcState
  deriving DecidableEq, Repr

/-- The FLAG unit (R45, R46, R47). -/
structure FlagUnit where
  /-- EXEC -/
  exec : BitVec 7
  /-- ALARM -/
  alarm : BitVec 6
  /-- ALARM_PENDING -/
  pending : Bool
  deriving DecidableEq, Repr

/-- The I2C unit (R48, R49). -/
structure I2cUnit where
  phase : Phase
  dir : Dir
  nak : Bool
  addr : BitVec 7
  lastBs : BusStatus
  deriving DecidableEq, Repr

/-- The EE unit (R51). -/
structure EeUnit where
  /-- EE.mem; an unlisted byte is erased and reads as 0xFF (R52) -/
  mem : Memory
  busy : Bool
  pend : EePend
  deriving DecidableEq, Repr

/-- The ghost logs (R54). No operation reads them. -/
structure Logs where
  txLine : List Byte
  busLog : List BusEvent
  eeLog : List EeCycle
  deriving DecidableEq, Repr

/-- The machine. -/
structure State where
  /-- the parameters of R9, which no step changes (R274) -/
  cfg : Params
  /-- RES[p] (R32) -/
  res : PerPort Result
  /-- PEND[p] (R34) -/
  pend : PerPort (Option Pending)
  fifo : FifoUnit
  flag : FlagUnit
  i2c : I2cUnit
  ee : EeUnit
  /-- BUF (R53): the bytes written since power-on. BUF.w[i] = 1 exactly where index i is listed. -/
  buf : Memory
  logs : Logs
  /-- MODEL: the words each agent has still to issue (R31) -/
  prog : PerPort (List Word)
  /-- MODEL: each agent's `ip`, the number of its words that have finished (R31) -/
  ip : PerPort Nat
  /-- MODEL: the answers I2T is about to give, in order; none left means it does not answer (R171, R183) -/
  busIn : List BusAnswer
  /-- MODEL: whose transition comes next, in order (R82, R84) -/
  sched : List Agent
  /-- MODEL: the port whose transition is being taken, the p of the rules -/
  cur : Port
  /-- MODEL: how many free BUF bytes have been drawn (R53) -/
  draws : Nat
  deriving DecidableEq, Repr

/-- Why the machine may stop. The block itself never faults (R17, R258): no state that a run from power-on
reaches raises this. -/
inductive Fault where
  /-- An access to an address that R70 does not give the space: a queue pointer at or above the capacity, an
  in-flight cycle at or above EE_SIZE, or an index of BUF above 255. Raised by `readByte` and `writeByte`. Safe:
  the model stops where R70 defines no access. -/
  | outsideSpace (sp : Space) (addr : Nat)
  deriving DecidableEq, Repr

/-- Why the model may refuse. -/
inductive Refusal where
  /-- An instruction that has no meaning in the model, by its mnemonic. Raised by no arm: every operation of
  the table has its meaning. Safe. -/
  | notModelled (mnemonic : String)
  deriving DecidableEq, Repr

/-- One value for every port. -/
def PerPort.const {α : Type} (v : α) : PerPort α := ⟨v, v, v, v⟩

/-- The state after power-on reset under the given parameters: the POR column of R60, with no program placed, no
answer offered and no transition scheduled (R270). -/
def State.por (c : Params) : State where
  cfg := c
  res := .const ⟨0x00, 0x0000⟩
  pend := .const none
  fifo := ⟨⟨[], 0, 0⟩, ⟨[], 0, 0⟩, false, .xonSent⟩
  flag := ⟨0, 0, false⟩
  i2c := ⟨.idle, .write, false, 0, .none⟩
  ee := ⟨c.eeInit, false, ⟨0, .none, 0⟩⟩
  buf := []
  logs := ⟨[], [], []⟩
  prog := .const []
  ip := .const 0
  busIn := []
  sched := []
  cur := .main
  draws := 0

/-- The machine right after power-on reset, under the default parameters of 95_test_vectors.md (assumption log 1). -/
def State.reset : State := State.por Config.defaults

end Sys2Proof.Machine
end

