-- ==== Sys2Proof/Machine/Codes.lean ====
section
/-! DEFINITION. The numeric codes of the named values (10_state.md, 60_exceptions.md) and the places of the flag
bits. -/

namespace Sys2Proof.Machine

/-- Status codes (60_exceptions.md rule R250). -/
inductive Status where
  | ok
  | empty
  | dropped
  | aborted
  | intercepted
  | i2cFail
  | i2cSeq
  | cksumFail
  | errRange
  | errArg
  | errIllegal
  deriving DecidableEq, Repr

/-- The code of a status (R250). -/
def Status.code : Status → BitVec 8
  | .ok => 0x00
  | .empty => 0x01
  | .dropped => 0x02
  | .aborted => 0x03
  | .intercepted => 0x04
  | .i2cFail => 0x10
  | .i2cSeq => 0x11
  | .cksumFail => 0x20
  | .errRange => 0x30
  | .errArg => 0x31
  | .errIllegal => 0x3F

/-- The code of FC_STATE (10_state.md rule R43). -/
def FcState.code : FcState → BitVec 2
  | .xonSent => 0
  | .sendXoff => 1
  | .xoffSent => 2
  | .sendXon => 3

/-- The code of I2C.phase (R48). -/
def Phase.code : Phase → BitVec 3
  | .idle => 0
  | .started => 1
  | .addressSent => 2
  | .dataPhase => 3
  | .stopped => 4

/-- The code of a bus status (R50). -/
def BusStatus.code : BusStatus → BitVec 4
  | .none => 0
  | .start => 1
  | .repStart => 2
  | .addrWAck => 3
  | .addrWNack => 4
  | .addrRAck => 5
  | .addrRNack => 6
  | .dataWAck => 7
  | .dataWNack => 8
  | .dataRAck => 9
  | .dataRNack => 10
  | .arbLost => 11
  | .busError => 12
  | .stop => 13

/-- The code of a program mode (R52). -/
def Mode.code : Mode → BitVec 2
  | .none => 0
  | .eraseWrite => 1
  | .eraseOnly => 2
  | .writeOnly => 3

/-- The direction bit, 1 = read (R48). -/
def dirBit : Dir → Bool
  | .write => false
  | .read => true

/-- The EXEC bit of a cause (R45). -/
def causeBit : ExecCause → Nat
  | .statusReport => 0
  | .cycleStart => 1
  | .cycleStop => 2
  | .feedHold => 3
  | .reset => 4
  | .safetyDoor => 5
  | .motionCancel => 6

/-- The EXEC mask of a cause (R45). -/
def causeMask (c : ExecCause) : BitVec 7 := 1#7 <<< causeBit c

/-- `zext_16(v)` (00_scope.md rule R11). -/
def zext16 {n : Nat} (v : BitVec n) : Half := v.setWidth 16

/-- A 16-bit value with one bit, in its place. -/
def bitAt (b : Bool) (k : Nat) : Half := if b then 1#16 <<< k else 0#16

end Sys2Proof.Machine
end

