-- ==== Sys2Proof/Machine/Ops.lean ====
section
/-! DEFINITION. The shared operations over the state: memory (20_memory.md), the per-port registers, `finish`, the
hold, and the decode-time permission check (10_state.md rule R33, 30_encoding.md rule R110).
TAKING AN EXCEPTION has no operation here: LSG-RTB never traps (60_exceptions.md rules R258 and R259). Every error is a
status, so `finish` with an error status and no other change is what `raise` means (00_scope.md rule R13). -/

namespace Sys2Proof.Machine

/-- What one transition answers. -/
abbrev Out := Host.Outcome State Fault Refusal

/-! ## Memory in canonical form -/

/-- The byte listed at an address. -/
def Mem.get? : Memory → Nat → Option Byte
  | [], _ => none
  | (k, v) :: m, a => if k = a then some v else Mem.get? m a

/-- Lists a byte at an address, keeping the addresses rising. -/
def Mem.put : Memory → Nat → Byte → Memory
  | [], a, v => [(a, v)]
  | (k, w) :: m, a, v =>
    if a < k then (a, v) :: (k, w) :: m
    else if a = k then (a, v) :: m
    else (k, w) :: Mem.put m a v

/-- Takes an address off the list. -/
def Mem.erase (m : Memory) (a : Nat) : Memory := m.filter (fun c => c.1 != a)

/-- Writes a byte, where an unlisted address reads as `u`: writing what an unlisted address reads as takes the
address off the list, so that equal memories are equal data. -/
def Mem.write (u : Option Byte) (m : Memory) (a : Nat) (v : Byte) : Memory :=
  if u = some v then Mem.erase m a else Mem.put m a v

/-- The canonical form, where an unlisted address reads as `u` and the space has `size` addresses. -/
abbrev Mem.Wf (u : Option Byte) (size : Nat) (m : Memory) : Prop :=
  m.Pairwise (fun c d => c.1 < d.1) ∧ ∀ c ∈ m, some c.2 ≠ u ∧ c.1 < size

/-! ## The address spaces of R70 -/

/-- The number of addresses of a space (R70). -/
def Space.size (c : Params) : Space → Nat
  | .rxmem => c.cRx
  | .txmem => c.cTx
  | .eemem => c.eeSize
  | .bufmem => Config.bufSize

/-- What an unlisted address reads as. An EEPROM byte is erased, 0xFF (R52). A queue slot is 0, which
93_implementation_defined.md U1 lets a model pick. A BUF byte has no value of its own: each read of it is a
fresh draw (R53). -/
def Space.unlisted : Space → Option Byte
  | .rxmem => some 0x00
  | .txmem => some 0x00
  | .eemem => some 0xFF
  | .bufmem => none

/-- The contents of a space (R70). -/
def State.mem (s : State) : Space → Memory
  | .rxmem => s.fifo.rx.mem
  | .txmem => s.fifo.tx.mem
  | .eemem => s.ee.mem
  | .bufmem => s.buf

/-! ## Updates, one per part of the state -/

def State.setRes (r : PerPort Result) (s : State) : State := { s with res := r }
def State.setPend (p : PerPort (Option Pending)) (s : State) : State := { s with pend := p }
def State.setFifo (f : FifoUnit) (s : State) : State := { s with fifo := f }
def State.setFlag (f : FlagUnit) (s : State) : State := { s with flag := f }
def State.setI2c (u : I2cUnit) (s : State) : State := { s with i2c := u }
def State.setEe (u : EeUnit) (s : State) : State := { s with ee := u }
def State.setBuf (m : Memory) (s : State) : State := { s with buf := m }
def State.setLogs (l : Logs) (s : State) : State := { s with logs := l }
def State.setProg (p : PerPort (List Word)) (s : State) : State := { s with prog := p }
def State.setIp (p : PerPort Nat) (s : State) : State := { s with ip := p }
def State.setBusIn (l : List BusAnswer) (s : State) : State := { s with busIn := l }
def State.setSched (l : List Agent) (s : State) : State := { s with sched := l }
def State.setCur (p : Port) (s : State) : State := { s with cur := p }
def State.setDraws (n : Nat) (s : State) : State := { s with draws := n }

/-- Sets the contents of a space. -/
def State.setMem (s : State) (m : Memory) : Space → State
  | .rxmem => s.setFifo { s.fifo with rx := { s.fifo.rx with mem := m } }
  | .txmem => s.setFifo { s.fifo with tx := { s.fifo.tx with mem := m } }
  | .eemem => s.setEe { s.ee with mem := m }
  | .bufmem => s.setBuf m

/-- What address `a` of a space reads as, if that is a settled value (R70). It is `none` only for a BUF byte with
BUF.w = 0 (R53). -/
def State.peek (s : State) (sp : Space) (a : Nat) : Option Byte :=
  match Mem.get? (s.mem sp) a with
  | some v => some v
  | none => sp.unlisted

/-- BUF.w[i] (R53). -/
def State.bufWritten (s : State) (i : Nat) : Bool := (Mem.get? s.buf i).isSome

/-- `MemRead(space, a, 1)` (R13, R70), then the rest of the transition. A byte that reads as no settled value is a
free value, one draw per read (R53, U2). -/
def readByte (sp : Space) (a : Nat) (s : State) (k : Byte → State → Out) : Out :=
  if a < sp.size s.cfg then
    match s.peek sp a with
    | some v => k v s
    | none => k (Config.freeByte s.draws) (s.setDraws (s.draws + 1))
  else .fault (.outsideSpace sp a)

/-- `MemWrite(space, a, 1, v)` (R13, R70), then the rest of the transition. A BUF byte written is a BUF byte with
BUF.w = 1, because it is listed (R53). -/
def writeByte (sp : Space) (a : Nat) (v : Byte) (s : State) (k : State → Out) : Out :=
  if a < sp.size s.cfg then k (s.setMem (Mem.write sp.unlisted (s.mem sp) a v) sp)
  else .fault (.outsideSpace sp a)

/-! ## The per-port registers -/

/-- The value of a port. -/
def PerPort.get {α : Type} (r : PerPort α) : Port → α
  | .main => r.main
  | .rxi => r.rxi
  | .txi => r.txi
  | .ext => r.ext

/-- Replaces the value of one port. -/
def PerPort.set {α : Type} (r : PerPort α) (p : Port) (v : α) : PerPort α :=
  match p with
  | .main => { r with main := v }
  | .rxi => { r with rxi := v }
  | .txi => { r with txi := v }
  | .ext => { r with ext := v }

/-- `finish(status, data)` on the issuing port p (R13, R32): RES[p] is written and PEND[p] is `none` again. The
agent is then past this word, so its `ip` moves on (R31). -/
def State.finish (st : Status) (d : Half) (s : State) : State :=
  ((s.setRes (s.res.set s.cur ⟨st.code, d⟩)).setPend (s.pend.set s.cur none)).setIp
    (s.ip.set s.cur (s.ip.get s.cur + 1))

/-- The operation is still in progress on the issuing port, with its next transition at `st` (R34): after `step`
(R13), and while it holds. -/
def State.await (i : Instr) (st : Stage) (s : State) : State :=
  s.setPend (s.pend.set s.cur (some ⟨encode i, st⟩))

/-- Which transition of its operation the issuing port takes (R34). Between operations it is the first. -/
def State.stage (s : State) : Stage :=
  match s.pend.get s.cur with
  | some r => r.stage
  | none => .start

/-- `hold` (R13): the operation stays where it is and nothing else changes. -/
def State.hold (i : Instr) (s : State) : State := s.await i s.stage

/-! ## Decode-time permission -/

/-- The port permission table R33. -/
def allowed : Instr → Port → Bool
  | .nop, _ => true
  | .csrRead _, _ => true
  | .ctrlReset, p => p == .main
  | .fifoPushWait .tx _, p => p == .main
  | .fifoPushWait .rx _, _ => false
  | .fifoPushDrop .rx _, p => p == .rxi
  | .fifoPushDrop .tx _, p => p == .main
  | .fifoPop .rx, p => p == .main
  | .fifoPop .tx, p => p == .txi
  | .fifoCount _, _ => true
  | .rxIngress _, p => p == .rxi
  | .txEgress, p => p == .txi
  | .execRaise _, _ => true
  | .execClear _, p => p == .main
  | .execRead, _ => true
  | .alarmRaise _, _ => true
  | .alarmClear, p => p == .main
  | .alarmRead, _ => true
  | .dispatchPeek, _ => true
  | .dispatchTake, p => p == .main
  | .i2cStart _ _, p => p == .main
  | .i2cRestart _ _, p => p == .main
  | .i2cWrite _, p => p == .main
  | .i2cReadAck, p => p == .main
  | .i2cReadNack, p => p == .main
  | .i2cStop, p => p == .main
  | .i2cWriteReg _ _ _, p => p == .main
  | .i2cReadReg _ _ _, p => p == .main
  | .eeGet _, p => p == .main
  | .eePut _ _, p => p == .main
  | .eeWriteBlock _ _, p => p == .main
  | .eeReadBlock _ _, p => p == .main
  | .bufWrite _ _, p => p == .main
  | .bufRead _, p => p == .main

/-- The port step of the check R110: an operation its port may not issue finishes with ERR_ILLEGAL and has no
other effect. -/
def onPort (i : Instr) (s : State) (body : Out) : Out :=
  if allowed i s.cur then body else .next (s.finish .errIllegal 0)

end Sys2Proof.Machine
end

