-- ==== Sys2Proof/Machine/Operands.lean ====
section
/-! DEFINITION. What the operand forms of 30_encoding.md rule R103 select: a queue and its geometry (10_state.md
rules R36 to R40), a real-time command byte (R44), a CSR index, an EEPROM address or range (43_eeprom.md rule R219), a
BUF index, and the address byte of the bus (42_i2c.md rule R184). -/

namespace Sys2Proof.Machine

/-! ## Q: a queue -/

/-- The slot space of a queue (20_memory.md rule R70). -/
def slotSpace : QueueId → Space
  | .rx => .rxmem
  | .tx => .txmem

/-- C_Q (R36). -/
def capacity (c : Params) : QueueId → Nat
  | .rx => c.cRx
  | .tx => c.cTx

/-- The queue Q selects (R104). -/
def State.queue (s : State) : QueueId → Queue
  | .rx => s.fifo.rx
  | .tx => s.fifo.tx

/-- Replaces the queue Q selects. -/
def State.setQueue (s : State) (u : Queue) : QueueId → State
  | .rx => s.setFifo { s.fifo with rx := u }
  | .tx => s.setFifo { s.fifo with tx := u }

/-- `next_Q(x)` (R39), computed without wrap-around (R12). -/
def nextPtr (c : Nat) (x : Byte) : Byte := if x.toNat + 1 = c then 0 else x + 1

/-- `empty_Q` (R40). -/
def Queue.isEmpty (u : Queue) : Bool := u.head == u.tail

/-- `full_Q` (R40). -/
def Queue.isFull (c : Nat) (u : Queue) : Bool := nextPtr c u.head == u.tail

/-- `count_Q` (R40). -/
def Queue.count (c : Nat) (u : Queue) : Nat :=
  if u.tail.toNat ≤ u.head.toNat then u.head.toNat - u.tail.toNat
  else c - u.tail.toNat + u.head.toNat

/-- `empty_Q` of the queue Q selects (R40). -/
def State.isEmpty (s : State) (q : QueueId) : Bool := (s.queue q).isEmpty

/-- `full_Q` of the queue Q selects (R40). -/
def State.isFull (s : State) (q : QueueId) : Bool := (s.queue q).isFull (capacity s.cfg q)

/-- `count_Q` of the queue Q selects (R40). -/
def State.count (s : State) (q : QueueId) : Nat := (s.queue q).count (capacity s.cfg q)

/-! ## DATA of RX_INGRESS: a byte from the serial line -/

/-- `RT_TABLE(b)` (R44): the cause of a real-time command byte. -/
def rtCause (c : Params) (b : Byte) : Option ExecCause := c.rtTable.lookup b

/-! ## A7 and RW: a bus address and direction -/

/-- `addr_byte(a, rw)` (R184): the 7-bit address in bits [7:1] and the direction in bit 0. -/
def addrByte (a : BitVec 7) (rw : Dir) : Byte :=
  (a.setWidth 8 <<< 1) ||| (match rw with | .write => 0x00 | .read => 0x01)

/-! ## ADDR16 and LEN: an EEPROM address or range -/

/-- The address check of EE_GET and EE_PUT (R219). -/
def inEeprom (c : Params) (a : Nat) : Bool := decide (a < c.eeSize)

/-- The range check of the EE block operations: data and trailer, without wrap-around (R219). -/
def blockInEeprom (c : Params) (a len : Nat) : Bool := decide (a + len < c.eeSize)

/-! ## IDX: a CSR index -/

/-- The CSR indexes that are not reserved (R56). -/
def csrIndexKnown (i : Nat) : Bool := decide (i ≤ 0x10)

/-! ## Which port issues an operation -/

/-- A port that may issue the operation (R33), for placing a single word on an agent (`State.placeWord`). A form
no port may issue goes to MAIN, where it is refused. -/
def issuer : Instr → Port
  | .nop => .main
  | .csrRead _ => .main
  | .ctrlReset => .main
  | .fifoPushWait _ _ => .main
  | .fifoPushDrop .rx _ => .rxi
  | .fifoPushDrop .tx _ => .main
  | .fifoPop .rx => .main
  | .fifoPop .tx => .txi
  | .fifoCount _ => .main
  | .rxIngress _ => .rxi
  | .txEgress => .txi
  | .execRaise _ => .main
  | .execClear _ => .main
  | .execRead => .main
  | .alarmRaise _ => .main
  | .alarmClear => .main
  | .alarmRead => .main
  | .dispatchPeek => .main
  | .dispatchTake => .main
  | .i2cStart _ _ => .main
  | .i2cRestart _ _ => .main
  | .i2cWrite _ => .main
  | .i2cReadAck => .main
  | .i2cReadNack => .main
  | .i2cStop => .main
  | .i2cWriteReg _ _ _ => .main
  | .i2cReadReg _ _ _ => .main
  | .eeGet _ => .main
  | .eePut _ _ => .main
  | .eeWriteBlock _ _ => .main
  | .eeReadBlock _ _ => .main
  | .bufWrite _ _ => .main
  | .bufRead _ => .main

end Sys2Proof.Machine
end

