-- ==== Sys2Proof/Machine/Eeprom.lean ====
section
/-! DEFINITION. The EE unit (43_eeprom.md): the program cycle, the byte operations and the checksummed blocks. -/

namespace Sys2Proof.Machine

/-- `classify(old, new)` (R201). -/
def classify (old new : Byte) : Mode :=
  if (old ^^^ new) &&& new ≠ 0 then (if new = 0xFF then .eraseOnly else .eraseWrite)
  else if old ^^^ new ≠ 0 then .writeOnly
  else .none

/-- What a program cycle of the given mode leaves in a cell (R208). The mode NONE starts no cycle. -/
def programmed : Mode → Byte → Byte → Byte
  | .none, old, _ => old
  | .eraseWrite, _, v => v
  | .eraseOnly, _, _ => 0xFF
  | .writeOnly, old, v => old &&& v

/-- EE_DONE, the step of EEA (R208). It is enabled only while EE.busy = 1; otherwise nothing happens. -/
def eeDone (s : State) : Out :=
  if s.ee.busy then
    readByte .eemem s.ee.pend.addr.toNat s fun old t =>
      writeByte .eemem t.ee.pend.addr.toNat (programmed t.ee.pend.mode old t.ee.pend.value) t fun u =>
        .next (u.setEe { u.ee with busy := false, pend := ⟨0, .none, 0⟩ })
  else .next s

/-- `rotl8(v, 1)` (R12). -/
def rotl8 (v : Byte) : Byte := (v <<< 1) ||| (v >>> 7)

/-- `cks_step(c, d)` (R210). -/
def cksStep : CksumCombine → Byte → Byte → Byte
  | .rotate, c, d => rotl8 c + d
  | .logicalOr, c, d => (if c ≠ 0 then 1 else 0) + d

/-- `cks(s)` (R210). -/
def cks (m : CksumCombine) (l : List Byte) : Byte := l.foldl (cksStep m) 0x00

/-- A program cycle starts: EE.busy, EE.pend and an entry of EE_LOG (R204, R206). -/
def State.startCycle (a : Nat) (m : Mode) (old v : Byte) (s : State) : State :=
  (s.setEe { s.ee with busy := true, pend := ⟨BitVec.ofNat 16 a, m, v⟩ }).setLogs
    { s.logs with eeLog := s.logs.eeLog ++ [⟨BitVec.ofNat 16 a, m, old, v⟩] }

/-- `put(x, v)` after its hold (R204, R212): the read of old, the classification and the start of the cycle, in one
transition. A byte that is already stored starts no cycle. -/
def putByte (a : Nat) (v : Byte) (s : State) (k : Mode → State → Out) : Out :=
  readByte .eemem a s fun old t =>
    match classify old v with
    | .none => k .none t
    | m => k m (t.startCycle a m old v)

/-- `hold until EE.busy = 0` (R200, R207). -/
def whenIdle (i : Instr) (s : State) (k : Out) : Out :=
  if s.ee.busy then .next (s.hold i) else k

/-- The loop index and running checksum of an EE block in progress; 0 and 0x00 at its first transition
(R34, R212, R213). -/
def State.blockLoop (s : State) : Nat × Byte :=
  match s.stage with
  | .block i c => (i, c)
  | _ => (0, 0x00)

/-- EE_GET (R203). -/
def execEeGet (a : Nat) (s : State) : Out :=
  onPort (.eeGet a) s <|
    if !inEeprom s.cfg a then .next (s.finish .errRange 0)
    else whenIdle (.eeGet a) s <| readByte .eemem a s fun d t => .next (t.finish .ok (zext16 d))

/-- EE_PUT (R204). -/
def execEePut (a : Nat) (v : Byte) (s : State) : Out :=
  onPort (.eePut a v) s <|
    if !inEeprom s.cfg a then .next (s.finish .errRange 0)
    else whenIdle (.eePut a v) s <| putByte a v s fun m t => .next (t.finish .ok (zext16 m.code))

/-- EE_WRITE_BLOCK (R212), one `put` a transition: data byte `i` while `i < len`, then the trailer. -/
def execEeWriteBlock (a len : Nat) (s : State) : Out :=
  onPort (.eeWriteBlock a len) s <|
    if !blockInEeprom s.cfg a len then .next (s.finish .errRange 0)
    else whenIdle (.eeWriteBlock a len) s <|
      if s.blockLoop.1 < len then
        readByte .bufmem s.blockLoop.1 s fun d t =>
          putByte (a + s.blockLoop.1) d t fun _ u =>
            .next (u.await (.eeWriteBlock a len)
              (.block (s.blockLoop.1 + 1) (cksStep s.cfg.cksum s.blockLoop.2 d)))
      else putByte (a + len) s.blockLoop.2 s fun _ u => .next (u.finish .ok (zext16 s.blockLoop.2))

/-- EE_READ_BLOCK (R213), one read a transition: data byte `i` while `i < len`, then the trailer. -/
def execEeReadBlock (a len : Nat) (s : State) : Out :=
  onPort (.eeReadBlock a len) s <|
    if !blockInEeprom s.cfg a len then .next (s.finish .errRange 0)
    else whenIdle (.eeReadBlock a len) s <|
      if s.blockLoop.1 < len then
        readByte .eemem (a + s.blockLoop.1) s fun d t =>
          writeByte .bufmem s.blockLoop.1 d t fun u =>
            .next (u.await (.eeReadBlock a len)
              (.block (s.blockLoop.1 + 1) (cksStep s.cfg.cksum s.blockLoop.2 d)))
      else
        readByte .eemem (a + len) s fun t u =>
          .next (u.finish (if s.blockLoop.2 = t then .ok else .cksumFail) ((zext16 t <<< 8) ||| zext16 s.blockLoop.2))

end Sys2Proof.Machine
end

