-- ==== Sys2Proof/Machine/Flags.lean ====
section
/-! DEFINITION. The flag computations: EXEC, ALARM and ALARM_PENDING with the dispatcher's priority
(41_event_flags.md), the flow-control marks (40_fifo.md rules R138 and R139), RX_OVF (10_state.md rule R42), and the STATUS bits,
which are the level outputs (R57, 60_exceptions.md rule R252). -/

namespace Sys2Proof.Machine

/-! ## EXEC and ALARM -/

/-- EXEC with the bits of a mask set (R151). -/
def FlagUnit.raiseExec (m : BitVec 7) (f : FlagUnit) : FlagUnit := { f with exec := f.exec ||| m }

/-- EXEC with the bits of a mask cleared (R152). -/
def FlagUnit.clearExec (m : BitVec 7) (f : FlagUnit) : FlagUnit := { f with exec := f.exec &&& ~~~m }

/-- ALARM with the bits of a mask set; a nonzero mask sets the latch (R154). -/
def FlagUnit.raiseAlarm (m : BitVec 6) (f : FlagUnit) : FlagUnit :=
  { f with alarm := f.alarm ||| m, pending := f.pending || m != 0 }

/-- Every alarm bit and the latch cleared (R155). -/
def FlagUnit.clearAlarm (f : FlagUnit) : FlagUnit := { f with alarm := 0, pending := false }

/-- EXEC bit of a cause (R45). -/
def FlagUnit.has (f : FlagUnit) (c : ExecCause) : Bool := f.exec.getLsbD (causeBit c)

/-! ## The dispatcher -/

/-- Dispatch codes by name (R161). -/
inductive DispatchCode where
  | none
  | alarm
  | exec (c : ExecCause)
  deriving DecidableEq, Repr

/-- The number of a dispatch code (R161). -/
def DispatchCode.code : DispatchCode → BitVec 4
  | .none => 0
  | .exec .reset => 1
  | .alarm => 2
  | .exec .safetyDoor => 3
  | .exec .motionCancel => 4
  | .exec .feedHold => 5
  | .exec .cycleStart => 6
  | .exec .cycleStop => 7
  | .exec .statusReport => 8

/-- `prio(EXEC, ALARM_PENDING)` (R162). -/
def FlagUnit.prio (f : FlagUnit) : DispatchCode :=
  if f.has .reset then .exec .reset
  else if f.pending then .alarm
  else if f.has .safetyDoor then .exec .safetyDoor
  else if f.has .motionCancel then .exec .motionCancel
  else if f.has .feedHold then .exec .feedHold
  else if f.has .cycleStart then .exec .cycleStart
  else if f.has .cycleStop then .exec .cycleStop
  else if f.has .statusReport then .exec .statusReport
  else .none

/-- The result of DISPATCH_PEEK and DISPATCH_TAKE: the code in [3:0] and, for the code ALARM, ALARM in [15:8]
(R163, R164). -/
def FlagUnit.dispatchData (f : FlagUnit) : Half :=
  match f.prio with
  | .alarm => (zext16 f.alarm <<< 8) ||| zext16 (DispatchCode.code .alarm)
  | k => zext16 k.code

/-- The flags after the dispatcher takes a cause: that one bit is cleared, and ALARM is kept (R164). -/
def FlagUnit.taken (f : FlagUnit) : DispatchCode → FlagUnit
  | .none => f
  | .alarm => { f with pending := false }
  | .exec c => f.clearExec (causeMask c)

/-- The result of ALARM_READ: ALARM in [5:0] and ALARM_PENDING in [8] (R156). -/
def FlagUnit.alarmData (f : FlagUnit) : Half := zext16 f.alarm ||| bitAt f.pending 8

/-! ## RX_OVF and FC_STATE -/

/-- A store found RX full (R42). -/
def State.rxOverflow (s : State) : State := s.setFifo { s.fifo with rxOvf := true }

/-- FC_STATE written. -/
def State.setFc (s : State) (fc : FcState) : State := s.setFifo { s.fifo with fc := fc }

/-- `rx_stored()`: the high-water check after a store into RX (R138). -/
def State.rxStored (s : State) : State :=
  if s.cfg.fcEnable && (s.fifo.fc == .xonSent) && decide (s.cfg.rxHigh ≤ s.count .rx) then s.setFc .sendXoff
  else s

/-- `rx_popped()`: the low-water check after every FIFO_POP on RX, an empty one too (R139). -/
def State.rxPopped (s : State) : State :=
  if s.cfg.fcEnable && (s.fifo.fc == .xoffSent) && decide (s.count .rx < s.cfg.rxLow) then s.setFc .sendXon
  else s

/-! ## STATUS -/

/-- A flow-control character is pending: FC_STATE is SendXoff or SendXon (R56). -/
def FcState.isPending : FcState → Bool
  | .xonSent => false
  | .sendXoff => true
  | .xoffSent => false
  | .sendXon => true

/-- The six level outputs, which are wires and no state (R57, R252). -/
structure LevelOutputs where
  /-- RX_OVF_O -/
  rxOvf : Bool
  /-- EE_BUSY_O -/
  eeBusy : Bool
  /-- ALARM_O -/
  alarm : Bool
  /-- EVENT_O -/
  event : Bool
  /-- RXNE_O -/
  rxne : Bool
  /-- TXP_O -/
  txp : Bool
  deriving DecidableEq, Repr

/-- The level outputs of a state (R252). -/
def State.outputs (s : State) : LevelOutputs where
  rxOvf := s.fifo.rxOvf
  eeBusy := s.ee.busy
  alarm := s.flag.alarm != 0
  event := s.flag.exec != 0 || s.flag.pending
  rxne := !s.isEmpty .rx
  txp := !s.isEmpty .tx || s.fifo.fc.isPending

/-- CSR STATUS holds the level outputs in bits 0 to 5 (R56, R57). -/
def LevelOutputs.bits (o : LevelOutputs) : Half :=
  bitAt o.rxOvf 0 ||| bitAt o.eeBusy 1 ||| bitAt o.alarm 2 ||| bitAt o.event 3 ||| bitAt o.rxne 4 ||| bitAt o.txp 5

end Sys2Proof.Machine
end

