-- ==== Sys2Proof/Machine/Fifo.lean ====
section
/-! DEFINITION. The FIFO unit (40_fifo.md). -/

namespace Sys2Proof.Machine

/-- `enqueue(Q, d)` (R120): the head slot, then head. -/
def enqueue (q : QueueId) (d : Byte) (s : State) (k : State → Out) : Out :=
  writeByte (slotSpace q) (s.queue q).head.toNat d s fun t =>
    k (t.setQueue { t.queue q with head := nextPtr (capacity t.cfg q) (t.queue q).head } q)

/-- `dequeue(Q)` (R124): the tail slot, then tail. -/
def dequeue (q : QueueId) (s : State) (k : Byte → State → Out) : Out :=
  readByte (slotSpace q) (s.queue q).tail.toNat s fun d t =>
    k d (t.setQueue { t.queue q with tail := nextPtr (capacity t.cfg q) (t.queue q).tail } q)

/-- What a store into queue Q does besides: the high-water check on RX (R138), nothing on TX. -/
def State.afterStore (s : State) : QueueId → State
  | .rx => s.rxStored
  | .tx => s

/-- What a store that finds queue Q full does besides: RX_OVF on RX (R42), nothing on TX. -/
def State.afterDrop (s : State) : QueueId → State
  | .rx => s.rxOverflow
  | .tx => s

/-- What a pop of queue Q does besides: the low-water check on RX (R139), nothing on TX. -/
def State.afterPop (s : State) : QueueId → State
  | .rx => s.rxPopped
  | .tx => s

/-- A byte sent to the serial line (R54). -/
def State.emitTx (b : Byte) (s : State) : State := s.setLogs { s.logs with txLine := s.logs.txLine ++ [b] }

/-- FIFO_PUSH_WAIT (R121). -/
def execFifoPushWait (q : QueueId) (d : Byte) (s : State) : Out :=
  onPort (.fifoPushWait q d) s <|
    if !s.isFull q then enqueue q d s fun t => .next (t.finish .ok 0)
    else if s.flag.has .reset then .next (s.finish .aborted 0)
    else .next (s.hold (.fifoPushWait q d))

/-- FIFO_PUSH_DROP (R122). -/
def execFifoPushDrop (q : QueueId) (d : Byte) (s : State) : Out :=
  onPort (.fifoPushDrop q d) s <|
    if !s.isFull q then enqueue q d s fun t => .next ((t.afterStore q).finish .ok 0)
    else .next ((s.afterDrop q).finish .dropped 0)

/-- FIFO_POP (R126). -/
def execFifoPop (q : QueueId) (s : State) : Out :=
  onPort (.fifoPop q) s <|
    if s.isEmpty q then .next ((s.afterPop q).finish .empty Config.emptySentinel)
    else dequeue q s fun d t => .next ((t.afterPop q).finish .ok (zext16 d))

/-- FIFO_COUNT (R127). -/
def execFifoCount (q : QueueId) (s : State) : Out :=
  onPort (.fifoCount q) s <| .next (s.finish .ok (BitVec.ofNat 16 (s.count q)))

/-- RX_INGRESS (R130, R132). -/
def execRxIngress (d : Byte) (s : State) : Out :=
  onPort (.rxIngress d) s <|
    match rtCause s.cfg d with
    | some c => .next ((s.setFlag (s.flag.raiseExec (causeMask c))).finish .intercepted (zext16 d))
    | none =>
      if !s.isFull .rx then enqueue .rx d s fun t => .next (t.rxStored.finish .ok (zext16 d))
      else .next (s.rxOverflow.finish .dropped (zext16 d))

/-- TX_EGRESS (R135): a pending flow-control character goes ahead of queued data. -/
def execTxEgress (s : State) : Out :=
  onPort .txEgress s <|
    if s.cfg.fcEnable && s.fifo.fc == .sendXoff then
      .next (((s.emitTx s.cfg.xoffChar).setFc .xoffSent).finish .ok (0x100 ||| zext16 s.cfg.xoffChar))
    else if s.cfg.fcEnable && s.fifo.fc == .sendXon then
      .next (((s.emitTx s.cfg.xonChar).setFc .xonSent).finish .ok (0x100 ||| zext16 s.cfg.xonChar))
    else if !s.isEmpty .tx then dequeue .tx s fun d t => .next ((t.emitTx d).finish .ok (zext16 d))
    else .next (s.finish .empty Config.emptySentinel)

end Sys2Proof.Machine
end

