-- ==== Sys2Proof/Machine/I2c.lean ====
section
/-! DEFINITION. The I2C unit (42_i2c.md): the bus phases, the primitive operations and the composite transfers. Each
bus phase is one transition, enabled only when I2T answers it. -/

namespace Sys2Proof.Machine

/-! ## Answers -/

/-- The answer set of a start or repeated start (R171). -/
def BusAnswer.start? : BusAnswer → Option StartAnswer
  | .ok => some .ok
  | .lost => some .lost
  | .berr => some .berr
  | .ack => none
  | .nack => none
  | .byte _ => none
  | .done => none

/-- The answer set of an address byte or a written data byte (R171). -/
def BusAnswer.byteAnswer? : BusAnswer → Option ByteAnswer
  | .ack => some .ack
  | .nack => some .nack
  | .lost => some .lost
  | .berr => some .berr
  | .ok => none
  | .byte _ => none
  | .done => none

/-- The answer set of a read: any byte (R171). -/
def BusAnswer.readByte? : BusAnswer → Option Byte
  | .byte b => some b
  | .ok => none
  | .ack => none
  | .nack => none
  | .lost => none
  | .berr => none
  | .done => none

/-- The answer set of a stop (R171). -/
def BusAnswer.done? : BusAnswer → Option Unit
  | .done => some ()
  | .ok => none
  | .ack => none
  | .nack => none
  | .lost => none
  | .berr => none
  | .byte _ => none

/-- The answer I2T gives the current bus phase, if it gives one of that phase's set (R171, R183). -/
def State.answer {α : Type} (sel : BusAnswer → Option α) (s : State) : Option α := s.busIn.head?.bind sel

/-- `Bus(phase, args)` (R13): one draw from I2T, then the rest of the transition. Without an answer the operation
holds (R183). -/
def onAnswer {α : Type} (sel : BusAnswer → Option α) (i : Instr) (s : State) (k : α → State → Out) : Out :=
  match s.answer sel with
  | some r => k r (s.setBusIn s.busIn.tail)
  | none => .next (s.hold i)

/-! ## Bus phases -/

/-- A transaction is open: the phase is Started, AddressSent or DataPhase (R185, R188). -/
def Phase.isOpen : Phase → Bool
  | .idle => false
  | .started => true
  | .addressSent => true
  | .dataPhase => true
  | .stopped => false

/-- `emit BUS_LOG, e` (R13). -/
def State.emitBus (e : BusEvent) (s : State) : State := s.setLogs { s.logs with busLog := s.logs.busLog ++ [e] }

/-- The bus status of a start condition, by its answer and whether a transaction was open (R185). -/
def startStatus (wasOpen : Bool) : StartAnswer → BusStatus
  | .ok => if wasOpen then .repStart else .start
  | .lost => .arbLost
  | .berr => .busError

/-- The bus event of a start condition (R54, R185). -/
def startEvent (wasOpen : Bool) : StartAnswer → BusEvent
  | .ok => if wasOpen then .sr else .s
  | .lost => .sf .arbLost
  | .berr => .sf .busError

/-- The bus status of an address byte (R185). -/
def addrStatus : Dir → ByteAnswer → BusStatus
  | .write, .ack => .addrWAck
  | .write, .nack => .addrWNack
  | .read, .ack => .addrRAck
  | .read, .nack => .addrRNack
  | _, .lost => .arbLost
  | _, .berr => .busError

/-- The bus status of a written data byte (R186). -/
def writeStatus : ByteAnswer → BusStatus
  | .ack => .dataWAck
  | .nack => .dataWNack
  | .lost => .arbLost
  | .berr => .busError

/-- The bus status of a read data byte (R187). -/
def readStatus : ReadReply → BusStatus
  | .ack => .dataRAck
  | .nack => .dataRNack

/-- Transition 1 of `do_start(a, rw)`, answered `r` (R185). -/
def State.startPhase (a : BitVec 7) (rw : Dir) (r : StartAnswer) (s : State) : State :=
  (s.emitBus (startEvent s.i2c.phase.isOpen r)).setI2c
    ⟨.started, rw, r != .ok, a, startStatus s.i2c.phase.isOpen r⟩

/-- Transition 2 of `do_start(a, rw)`, answered `r` (R185). It leaves I2C.addr and I2C.dir as transition 1 set
them. -/
def State.addrPhase (a : BitVec 7) (rw : Dir) (r : ByteAnswer) (s : State) : State :=
  (s.emitBus (.a (addrByte a rw) r)).setI2c
    { s.i2c with phase := .addressSent, nak := r != .ack, lastBs := addrStatus rw r }

/-- `do_write(d)`, answered `r` (R186). -/
def State.writePhase (d : Byte) (r : ByteAnswer) (s : State) : State :=
  (s.emitBus (.w d r)).setI2c { s.i2c with phase := .dataPhase, nak := r != .ack, lastBs := writeStatus r }

/-- `do_read(m)`, which received `b` (R187). -/
def State.readPhase (m : ReadReply) (b : Byte) (s : State) : State :=
  (s.emitBus (.r b m)).setI2c { s.i2c with phase := .dataPhase, nak := m == .nack, lastBs := readStatus m }

/-- The bus part of `do_stop()` (R188). -/
def State.stopPhase (s : State) : State :=
  (s.emitBus .p).setI2c { s.i2c with phase := .stopped, dir := .write, nak := false, lastBs := .stop }

/-- A start condition, then on OK or on FAIL (R185). -/
def busStart (i : Instr) (a : BitVec 7) (rw : Dir) (s : State) (onOk onFail : State → Out) : Out :=
  onAnswer BusAnswer.start? i s fun r t =>
    if r = .ok then onOk (t.startPhase a rw r) else onFail (t.startPhase a rw r)

/-- An address byte, then on OK or on FAIL (R185). -/
def busAddr (i : Instr) (a : BitVec 7) (rw : Dir) (s : State) (onOk onFail : State → Out) : Out :=
  onAnswer BusAnswer.byteAnswer? i s fun r t =>
    if r = .ack then onOk (t.addrPhase a rw r) else onFail (t.addrPhase a rw r)

/-- A written data byte, then on OK or on FAIL (R186). -/
def busWrite (i : Instr) (d : Byte) (s : State) (onOk onFail : State → Out) : Out :=
  onAnswer BusAnswer.byteAnswer? i s fun r t =>
    if r = .ack then onOk (t.writePhase d r) else onFail (t.writePhase d r)

/-- A read data byte (R187). -/
def busRead (i : Instr) (m : ReadReply) (s : State) (k : Byte → State → Out) : Out :=
  onAnswer BusAnswer.readByte? i s fun b t => k b (t.readPhase m b)

/-- `do_stop()` (R188): one bus phase when a transaction is open and none otherwise. -/
def busStop (i : Instr) (s : State) (k : State → Out) : Out :=
  if s.i2c.phase.isOpen then onAnswer BusAnswer.done? i s fun _ t => k t.stopPhase else k s

/-! ## Phase legality -/

/-- I2C_WRITE is legal (R172). -/
def I2cUnit.mayWrite (u : I2cUnit) : Bool :=
  (u.phase == .addressSent || u.phase == .dataPhase) && u.dir == .write && !u.nak

/-- I2C_READ_ACK and I2C_READ_NACK are legal (R172). -/
def I2cUnit.mayRead (u : I2cUnit) : Bool :=
  (u.phase == .addressSent || u.phase == .dataPhase) && u.dir == .read && !u.nak

/-- The composite operations are legal: no transaction is open (R172). -/
def I2cUnit.mayCompose (u : I2cUnit) : Bool := !u.phase.isOpen

/-! ## Primitive operations -/

/-- A primitive ends with I2C.last_bs as its data (R173 to R175, R178). -/
def State.finishBus (st : Status) (s : State) : State := s.finish st (zext16 s.i2c.lastBs.code)

/-- `do_start` and then `finish` as one atomic transition (20_memory.md rule R79): the effect of transition 1 of R185 and
then that of transition 2. It is enabled when I2T answers every phase it
needs: the start condition and, unless that fails, the address byte. Otherwise it holds and takes no answer. -/
def startWhole (i : Instr) (a : BitVec 7) (rw : Dir) (s : State) : Out :=
  onAnswer BusAnswer.start? i s fun r t =>
    if r = .ok then
      match t.answer BusAnswer.byteAnswer? with
      | some q =>
        .next (State.finishBus (if q = .ack then .ok else .i2cFail)
          (((t.startPhase a rw r).setBusIn t.busIn.tail).addrPhase a rw q))
      | none => .next (s.hold i)
    else .next ((t.startPhase a rw r).finishBus .i2cFail)

/-- `do_start` and then `finish`, which I2C_START and I2C_RESTART share (R173, R174): one atomic transition, because they
are no composites (20_memory.md rule R79, decision D3), and the `step` of 00_scope.md rule R13 ends a transition in a
composite only. Where the parameter `startAtomic` is false the two bus phases are the two transitions that R185 and
70_reset_and_hazards.md rule R288 count. DESIGN CHOICE (assumption log 23) -/
def startOp (i : Instr) (a : BitVec 7) (rw : Dir) (s : State) : Out :=
  if s.stage = .addr then
    busAddr i a rw s (fun t => .next (t.finishBus .ok)) (fun t => .next (t.finishBus .i2cFail))
  else if s.cfg.startAtomic then startWhole i a rw s
  else
    busStart i a rw s (fun t => .next (t.await i .addr)) (fun t => .next (t.finishBus .i2cFail))

/-- I2C_START (R173). -/
def execI2cStart (a : BitVec 7) (rw : Dir) (s : State) : Out :=
  onPort (.i2cStart a rw) s <| startOp (.i2cStart a rw) a rw s

/-- I2C_RESTART, "semantically identical to `start`" (R174). -/
def execI2cRestart (a : BitVec 7) (rw : Dir) (s : State) : Out :=
  onPort (.i2cRestart a rw) s <| startOp (.i2cRestart a rw) a rw s

/-- I2C_WRITE (R175). -/
def execI2cWrite (d : Byte) (s : State) : Out :=
  onPort (.i2cWrite d) s <|
    if !s.i2c.mayWrite then .next (s.finish .i2cSeq 0)
    else busWrite (.i2cWrite d) d s (fun t => .next (t.finishBus .ok)) (fun t => .next (t.finishBus .i2cFail))

/-- I2C_READ_ACK (R176). -/
def execI2cReadAck (s : State) : Out :=
  onPort .i2cReadAck s <|
    if !s.i2c.mayRead then .next (s.finish .i2cSeq 0)
    else busRead .i2cReadAck .ack s fun b t => .next (t.finish .ok (zext16 b))

/-- I2C_READ_NACK (R177). -/
def execI2cReadNack (s : State) : Out :=
  onPort .i2cReadNack s <|
    if !s.i2c.mayRead then .next (s.finish .i2cSeq 0)
    else busRead .i2cReadNack .nack s fun b t => .next (t.finish .ok (zext16 b))

/-- I2C_STOP (R178). -/
def execI2cStop (s : State) : Out :=
  onPort .i2cStop s <| busStop .i2cStop s fun t => .next (t.finishBus .ok)

/-! ## Composite operations -/

/-- BUF[0 .. n - 1] written with 0 (R181, decision D24). -/
def zeroBuf : Nat → State → (State → Out) → Out
  | 0, s, k => k s
  | n + 1, s, k => writeByte .bufmem n 0x00 s fun t => zeroBuf n t k

/-- I2C_WRITE_REG (R180), one bus phase a transition. -/
def execI2cWriteReg (a : BitVec 7) (reg : Byte) (n : Nat) (s : State) : Out :=
  let i := .i2cWriteReg a reg n
  let go (st : Stage) (t : State) : Out := .next (t.await i st)
  onPort i s <|
    match s.stage with
    | .addr => busAddr i a .write s (go .reg) (go .abort)
    | .reg => busWrite i reg s (go (.data 0)) (go .abort)
    | .data j =>
      if j < n then
        onAnswer BusAnswer.byteAnswer? i s fun r t =>
          readByte .bufmem j t fun d u => go (if r = .ack then .data (j + 1) else .abort) (u.writePhase d r)
      else busStop i s fun t => .next (t.finish .ok 0)
    | .abort => busStop i s fun t => .next (t.finish .i2cFail (zext16 s.i2c.lastBs.code))
    | _ =>
      if !s.i2c.mayCompose then .next (s.finish .i2cSeq 0) else busStart i a .write s (go .addr) (go .abort)

/-- I2C_READ_REG (R181), one bus phase a transition. -/
def execI2cReadReg (a : BitVec 7) (reg : Byte) (n : Nat) (s : State) : Out :=
  let i := .i2cReadReg a reg n
  let go (st : Stage) (t : State) : Out := .next (t.await i st)
  onPort i s <|
    if n = 0 then .next (s.finish .errArg 0)
    else
      match s.stage with
      | .addr => busAddr i a .write s (go .reg) (go .abort)
      | .reg => busWrite i reg s (go .restart) (go .abort)
      | .restart => busStart i a .read s (go .raddr) (go .abort)
      | .raddr => busAddr i a .read s (go (.data 0)) (go .abort)
      | .data j =>
        if j < n then
          busRead i (if j + 1 < n then .ack else .nack) s fun b t =>
            writeByte .bufmem j b t (go (.data (j + 1)))
        else busStop i s fun t => readByte .bufmem 0 t fun d u => .next (u.finish .ok (zext16 d))
      | .abort => busStop i s fun t => zeroBuf n t fun u => .next (u.finish .i2cFail 0)
      | _ =>
        if !s.i2c.mayCompose then .next (s.finish .i2cSeq 0) else busStart i a .write s (go .addr) (go .abort)

end Sys2Proof.Machine
end

