-- ==== Sys2Proof/Machine/Agents.lean ====
section
/-! DEFINITION. What the agents do around the operations: issuing the next command word (10_state.md rules R31 and R34),
and when an agent has no enabled step (00_scope.md rule R13, 60_exceptions.md rule R255). -/

namespace Sys2Proof.Machine

/-! ## Issuing a word -/

/-- What the issuing port is about to do. -/
inductive Issued where
  /-- its program has no word left, and it is between operations -/
  | idle (s : State)
  /-- its word decodes to ILLEGAL -/
  | illegal (s : State)
  /-- it takes a transition of this operation -/
  | run (i : Instr) (s : State)
  deriving DecidableEq, Repr

/-- The word decoded (R105, R110). -/
def State.decoded (s : State) (w : Word) : Issued :=
  match decode w with
  | some i => .run i s
  | none => .illegal s

/-- The issuing port goes on with the word of its operation in progress (R34), and otherwise issues the next word
of its program (R31). -/
def State.issue (s : State) : Issued :=
  match s.pend.get s.cur with
  | some r => s.decoded r.word
  | none =>
    match s.prog.get s.cur with
    | [] => .idle s
    | w :: ws => (s.setProg (s.prog.set s.cur ws)).decoded w

/-- A word placed on port `p` as its next, and that port's transition placed next: what a loader outside the
block does to run one operation (assumption log 6). -/
def State.placeWord (p : Port) (w : Word) (s : State) : State :=
  ((s.setProg (s.prog.set p (w :: s.prog.get p))).setPend (s.pend.set p none)).setSched (.port p :: s.sched)

/-- The port a placed word goes to: one that may issue it (R33), and MAIN for a word that is ILLEGAL. -/
def wordPort (w : Word) : Port :=
  match decode w with
  | some i => issuer i
  | none => .main

/-- Power taken away and given back: every element is at its power-on value and EEMEM keeps its bytes (20_memory.md rule
R72, 60_exceptions.md rule R266, 70_reset_and_hazards.md rule R270). The draws of free BUF bytes go on
counting, so that a read after it is a fresh draw too (10_state.md rule R53, assumption log 8). R276 does not model a power
loss while a program cycle is in flight, so there is no such state then (assumption log 12). -/
def State.powerCycle (s : State) : Option State :=
  if s.ee.busy then none else some ((State.por { s.cfg with eeInit := s.ee.mem }).setDraws s.draws)

/-! ## Holds -/

/-- The bus phases of R171, and the two of a start that is one transition (`startWhole`). -/
inductive BusPhase where
  | start
  | startAddr
  | addr
  | write
  | read
  | stop
  deriving DecidableEq, Repr

/-- I2T gives the phase an answer of its set (R171), and both phases of `startWhole` unless the first fails. -/
def State.answered (s : State) : BusPhase → Bool
  | .start => (s.answer BusAnswer.start?).isSome
  | .startAddr =>
    match s.answer BusAnswer.start? with
    | some r => r != .ok || ((s.setBusIn s.busIn.tail).answer BusAnswer.byteAnswer?).isSome
    | none => false
  | .addr => (s.answer BusAnswer.byteAnswer?).isSome
  | .write => (s.answer BusAnswer.byteAnswer?).isSome
  | .read => (s.answer BusAnswer.readByte?).isSome
  | .stop => (s.answer BusAnswer.done?).isSome

/-- The stop phase, when a transaction is open (R188). -/
def I2cUnit.stopNeed (u : I2cUnit) : Option BusPhase := if u.phase.isOpen then some .stop else none

/-- The bus phase a composite needs at its first transition (R180, R181). -/
def I2cUnit.composeNeed (u : I2cUnit) : Option BusPhase := if u.mayCompose then some .start else none

/-- What I2C_START and I2C_RESTART need at their next transition (`startOp`). -/
def State.startNeed (s : State) : BusPhase :=
  if s.stage = .addr then .addr else if s.cfg.startAtomic then .startAddr else .start

/-- The bus phase that the next transition of an operation of the issuing port needs, if it needs one
(42_i2c.md rules R172 to R188). -/
def State.busNeed (s : State) : Instr → Option BusPhase
  | .i2cStart _ _ => some s.startNeed
  | .i2cRestart _ _ => some s.startNeed
  | .i2cWrite _ => if s.i2c.mayWrite then some .write else none
  | .i2cReadAck => if s.i2c.mayRead then some .read else none
  | .i2cReadNack => if s.i2c.mayRead then some .read else none
  | .i2cStop => s.i2c.stopNeed
  | .i2cWriteReg _ _ n =>
    match s.stage with
    | .addr => some .addr
    | .reg => some .write
    | .data j => if j < n then some .write else s.i2c.stopNeed
    | .abort => s.i2c.stopNeed
    | _ => s.i2c.composeNeed
  | .i2cReadReg _ _ n =>
    if n = 0 then none
    else
      match s.stage with
      | .addr => some .addr
      | .reg => some .write
      | .restart => some .start
      | .raddr => some .addr
      | .data j => if j < n then some .read else s.i2c.stopNeed
      | .abort => s.i2c.stopNeed
      | _ => s.i2c.composeNeed
  | .nop | .csrRead _ | .ctrlReset | .fifoPushWait _ _ | .fifoPushDrop _ _ | .fifoPop _ | .fifoCount _
  | .rxIngress _ | .txEgress | .execRaise _ | .execClear _ | .execRead | .alarmRaise _ | .alarmClear
  | .alarmRead | .dispatchPeek | .dispatchTake | .eeGet _ | .eePut _ _ | .eeWriteBlock _ _ | .eeReadBlock _ _
  | .bufWrite _ _ | .bufRead _ => none

/-- The hold conditions of R255 other than a bus phase: a full TX with no reset pending (40_fifo.md rule R121), and an
EE operation in range while EE.busy = 1 (43_eeprom.md rule R207). -/
def State.unitHold (s : State) : Instr → Bool
  | .fifoPushWait q _ => s.isFull q && !s.flag.has .reset
  | .eeGet a => inEeprom s.cfg a && s.ee.busy
  | .eePut a _ => inEeprom s.cfg a && s.ee.busy
  | .eeWriteBlock a len => blockInEeprom s.cfg a len && s.ee.busy
  | .eeReadBlock a len => blockInEeprom s.cfg a len && s.ee.busy
  | .nop | .csrRead _ | .ctrlReset | .fifoPushDrop _ _ | .fifoPop _ | .fifoCount _
  | .rxIngress _ | .txEgress | .execRaise _ | .execClear _ | .execRead | .alarmRaise _ | .alarmClear
  | .alarmRead | .dispatchPeek | .dispatchTake | .i2cStart _ _ | .i2cRestart _ _ | .i2cWrite _ | .i2cReadAck
  | .i2cReadNack | .i2cStop | .i2cWriteReg _ _ _ | .i2cReadReg _ _ _ | .bufWrite _ _ | .bufRead _ => false

/-- The operation holds: its port has no enabled step (R13, R255). -/
def State.holds (s : State) (i : Instr) : Bool :=
  allowed i s.cur &&
    (s.unitHold i || match s.busNeed i with
      | some ph => !s.answered ph
      | none => false)

/-- An agent has an enabled step (R13, R208). -/
def State.enabled (s : State) : Agent → Bool
  | .eea => s.ee.busy
  | .port p =>
    match (s.setCur p).issue with
    | .idle _ => false
    | .illegal _ => true
    | .run i t => !t.holds i

end Sys2Proof.Machine
end

