-- ==== Sys2Proof/Machine/Ctrl.lean ====
section
/-! DEFINITION. The CTRL and BUF units (44_control.md) and the CSR space (10_state.md rules R55 and R56). -/

namespace Sys2Proof.Machine

/-- CSR I2C_STATE: phase [2:0], dir [3], nak [4], addr [11:5] (R56). -/
def I2cUnit.stateBits (u : I2cUnit) : Half :=
  zext16 u.phase.code ||| bitAt (dirBit u.dir) 3 ||| bitAt u.nak 4 ||| (zext16 u.addr <<< 5)

/-- The CSR map R56: the value a CSR shows at this transition. The bits it does not list read 0 (R55), and so
would an index it reserves, which CSR_READ refuses (R231). -/
def csr (s : State) : Nat → Half
  | 0x00 => zext16 s.fifo.rx.head
  | 0x01 => zext16 s.fifo.rx.tail
  | 0x02 => BitVec.ofNat 16 (s.count .rx)
  | 0x03 => zext16 s.fifo.tx.head
  | 0x04 => zext16 s.fifo.tx.tail
  | 0x05 => BitVec.ofNat 16 (s.count .tx)
  | 0x06 => zext16 s.fifo.fc.code ||| bitAt s.cfg.fcEnable 2
  | 0x07 => s.outputs.bits
  | 0x08 => zext16 s.flag.exec
  | 0x09 => s.flag.alarmData
  | 0x0A => s.i2c.stateBits
  | 0x0B => zext16 s.i2c.lastBs.code
  | 0x0C => BitVec.ofNat 16 s.cfg.cRx
  | 0x0D => BitVec.ofNat 16 s.cfg.cTx
  | 0x0E => BitVec.ofNat 16 (s.cfg.eeSize - 1)
  | 0x0F => s.ee.pend.addr
  | 0x10 => zext16 s.ee.pend.mode.code ||| (zext16 s.ee.pend.value <<< 8)
  | _ => 0

/-- What CTRL_RESET leaves of a queue: both pointers 0, the slots as they are (R233). -/
def Queue.cleared (u : Queue) : Queue := { u with head := 0, tail := 0 }

/-- The controller reset (R233, R271). -/
def State.controllerReset (s : State) : State :=
  (s.setFifo ⟨s.fifo.rx.cleared, s.fifo.tx.cleared, false, .xonSent⟩).setFlag ⟨0, 0, false⟩

/-- NOP (R230). -/
def execNop (s : State) : Out :=
  onPort .nop s <| .next (s.finish .ok 0)

/-- CSR_READ (R231). -/
def execCsrRead (idx : Nat) (s : State) : Out :=
  onPort (.csrRead idx) s <|
    if !csrIndexKnown idx then .next (s.finish .errArg 0) else .next (s.finish .ok (csr s idx))

/-- CTRL_RESET (R233). -/
def execCtrlReset (s : State) : Out :=
  onPort .ctrlReset s <| .next (s.controllerReset.finish .ok 0)

/-- BUF_WRITE (R235). -/
def execBufWrite (idx : Nat) (d : Byte) (s : State) : Out :=
  onPort (.bufWrite idx d) s <| writeByte .bufmem idx d s fun t => .next (t.finish .ok 0)

/-- BUF_READ (R236). A byte with BUF.w = 0 is a free value (R53). -/
def execBufRead (idx : Nat) (s : State) : Out :=
  onPort (.bufRead idx) s <| readByte .bufmem idx s fun d t => .next (t.finish .ok (zext16 d))

end Sys2Proof.Machine
end

