-- ==== Sys2Proof/Machine/EventFlags.lean ====
section
/-! DEFINITION. The FLAG unit (41_event_flags.md). Each operation is one transition and never holds (R150). -/

namespace Sys2Proof.Machine

/-- EXEC_RAISE (R151). -/
def execExecRaise (m : BitVec 7) (s : State) : Out :=
  onPort (.execRaise m) s <| .next ((s.setFlag (s.flag.raiseExec m)).finish .ok (zext16 s.flag.exec))

/-- EXEC_CLEAR (R152). -/
def execExecClear (m : BitVec 7) (s : State) : Out :=
  onPort (.execClear m) s <| .next ((s.setFlag (s.flag.clearExec m)).finish .ok (zext16 s.flag.exec))

/-- EXEC_READ (R153). -/
def execExecRead (s : State) : Out :=
  onPort .execRead s <| .next (s.finish .ok (zext16 s.flag.exec))

/-- ALARM_RAISE (R154). -/
def execAlarmRaise (m : BitVec 6) (s : State) : Out :=
  onPort (.alarmRaise m) s <| .next ((s.setFlag (s.flag.raiseAlarm m)).finish .ok (zext16 s.flag.alarm))

/-- ALARM_CLEAR (R155). -/
def execAlarmClear (s : State) : Out :=
  onPort .alarmClear s <| .next ((s.setFlag s.flag.clearAlarm).finish .ok (zext16 s.flag.alarm))

/-- ALARM_READ (R156). -/
def execAlarmRead (s : State) : Out :=
  onPort .alarmRead s <| .next (s.finish .ok s.flag.alarmData)

/-- DISPATCH_PEEK (R163). -/
def execDispatchPeek (s : State) : Out :=
  onPort .dispatchPeek s <| .next (s.finish .ok s.flag.dispatchData)

/-- DISPATCH_TAKE (R164). -/
def execDispatchTake (s : State) : Out :=
  onPort .dispatchTake s <| .next ((s.setFlag (s.flag.taken s.flag.prio)).finish .ok s.flag.dispatchData)

end Sys2Proof.Machine
end

