-- ==== Sys2Proof/Machine/Dispatch.lean ====
section
/-! DEFINITION. One transition of an operation on the issuing port `State.cur`, by operation. -/

namespace Sys2Proof.Machine

open Sys2Proof

def exec (i : Instr) (s : State) : Host.Outcome State Fault Refusal :=
  match i with
  -- CTRL
  | .nop => Sys2Proof.Machine.execNop s
  | .csrRead idx => Sys2Proof.Machine.execCsrRead idx s
  | .ctrlReset => Sys2Proof.Machine.execCtrlReset s
  -- FIFO
  | .fifoPushWait q d => Sys2Proof.Machine.execFifoPushWait q d s
  | .fifoPushDrop q d => Sys2Proof.Machine.execFifoPushDrop q d s
  | .fifoPop q => Sys2Proof.Machine.execFifoPop q s
  | .fifoCount q => Sys2Proof.Machine.execFifoCount q s
  | .rxIngress d => Sys2Proof.Machine.execRxIngress d s
  | .txEgress => Sys2Proof.Machine.execTxEgress s
  -- FLAG
  | .execRaise m => Sys2Proof.Machine.execExecRaise m s
  | .execClear m => Sys2Proof.Machine.execExecClear m s
  | .execRead => Sys2Proof.Machine.execExecRead s
  | .alarmRaise m => Sys2Proof.Machine.execAlarmRaise m s
  | .alarmClear => Sys2Proof.Machine.execAlarmClear s
  | .alarmRead => Sys2Proof.Machine.execAlarmRead s
  | .dispatchPeek => Sys2Proof.Machine.execDispatchPeek s
  | .dispatchTake => Sys2Proof.Machine.execDispatchTake s
  -- I2C
  | .i2cStart a rw => Sys2Proof.Machine.execI2cStart a rw s
  | .i2cRestart a rw => Sys2Proof.Machine.execI2cRestart a rw s
  | .i2cWrite d => Sys2Proof.Machine.execI2cWrite d s
  | .i2cReadAck => Sys2Proof.Machine.execI2cReadAck s
  | .i2cReadNack => Sys2Proof.Machine.execI2cReadNack s
  | .i2cStop => Sys2Proof.Machine.execI2cStop s
  | .i2cWriteReg a reg n => Sys2Proof.Machine.execI2cWriteReg a reg n s
  | .i2cReadReg a reg n => Sys2Proof.Machine.execI2cReadReg a reg n s
  -- EE
  | .eeGet a => Sys2Proof.Machine.execEeGet a s
  | .eePut a v => Sys2Proof.Machine.execEePut a v s
  | .eeWriteBlock a len => Sys2Proof.Machine.execEeWriteBlock a len s
  | .eeReadBlock a len => Sys2Proof.Machine.execEeReadBlock a len s
  -- BUF
  | .bufWrite idx d => Sys2Proof.Machine.execBufWrite idx d s
  | .bufRead idx => Sys2Proof.Machine.execBufRead idx s

end Sys2Proof.Machine
end

