-- ==== Sys2Proof/Machine/Step.lean ====
section
/-! DEFINITION. One step of the machine: one transition of the agent the schedule names next (20_memory.md rules R82 and
R84). -/

namespace Sys2Proof.Machine

/-- One transition. When the schedule has run out EEA takes the transition, which is its duty while EE.busy = 1
(43_eeprom.md rule R208, 70_reset_and_hazards.md rule R276): the schedule delays EE_DONE as long as it likes, and never for
ever (assumption log 2). With no program cycle in flight, and for an agent with no word to issue, nothing happens. -/
def step (s : State) : Host.Outcome State Fault Refusal :=
  match s.sched with
  | [] => eeDone s
  | .eea :: rest => eeDone (s.setSched rest)
  | .port p :: rest =>
    match ((s.setSched rest).setCur p).issue with
    | .idle t => .next t
    | .illegal t => .next (t.finish .errIllegal 0)
    | .run i t => exec i t

/-- The state with one command word placed so that the next step issues and runs it (assumption log 6). The block
fetches nothing (20_memory.md rule R73): the word goes to the program of a port that may issue it, between operations,
and that port is scheduled next. -/
def State.withFetchWord (s : State) (nbits w : Nat) : State :=
  let word : Word := BitVec.ofNat 32 (w % 2 ^ nbits)
  s.placeWord (wordPort word) word

end Sys2Proof.Machine
end

