-- ==== Sys2Proof/Safety.lean ====
section
/-! DEFINITION. The terms the claims use: the invariant of the machine, what a queue holds, and when a run is finished
or stuck. -/

namespace Sys2Proof.Machine

/-- The parameters are in the ranges of 00_scope.md rule R9: RT_TABLE is a map (10_state.md rule R44) and EE_INIT an
array of EE_SIZE bytes. -/
structure ParamsOk (c : Params) : Prop where
  cRx : 2 ≤ c.cRx ∧ c.cRx ≤ 256
  cTx : 2 ≤ c.cTx ∧ c.cTx ≤ 256
  marks : 1 ≤ c.rxLow ∧ c.rxLow ≤ c.rxHigh ∧ c.rxHigh ≤ c.cRx - 1
  eeSize : 1 ≤ c.eeSize ∧ c.eeSize ≤ 65536
  eeInit : Mem.Wf Space.eemem.unlisted c.eeSize c.eeInit
  rtTable : (c.rtTable.map Prod.fst).Nodup

/-- Both pointers of a queue are slots of it (R37). -/
def Queue.InRange (n : Nat) (u : Queue) : Prop := u.head.toNat < n ∧ u.tail.toNat < n

/-- The status codes of 60_exceptions.md rule R250. No other value is ever written. -/
def statusCodes : List (BitVec 8) :=
  [0x00, 0x01, 0x02, 0x03, 0x04, 0x10, 0x11, 0x20, 0x30, 0x31, 0x3F]

/-- A record of PEND that an operation in progress on MAIN can have (R34): which stages it passes through, and what
the I2C unit is in at each of them (42_i2c.md rules R180, R181, R185). -/
def stageFits (s : State) : Instr → Stage → Prop
  | .fifoPushWait .tx _, .start => True
  | .i2cStart _ _, .start => True
  | .i2cStart a rw, .addr => s.cfg.startAtomic = false ∧ s.i2c = ⟨.started, rw, false, a, s.i2c.lastBs⟩
  | .i2cRestart _ _, .start => True
  | .i2cRestart a rw, .addr => s.cfg.startAtomic = false ∧ s.i2c = ⟨.started, rw, false, a, s.i2c.lastBs⟩
  | .i2cWrite _, .start => s.i2c.mayWrite = true
  | .i2cReadAck, .start => s.i2c.mayRead = true
  | .i2cReadNack, .start => s.i2c.mayRead = true
  | .i2cStop, .start => s.i2c.phase.isOpen = true
  | .i2cWriteReg _ _ _, .start => s.i2c.phase.isOpen = false
  | .i2cWriteReg a _ _, .addr => s.i2c = ⟨.started, .write, false, a, s.i2c.lastBs⟩
  | .i2cWriteReg a _ _, .reg => s.i2c = ⟨.addressSent, .write, false, a, s.i2c.lastBs⟩
  | .i2cWriteReg a _ n, .data j => j ≤ n ∧ s.i2c = ⟨.dataPhase, .write, false, a, .dataWAck⟩
  | .i2cWriteReg _ _ _, .abort => s.i2c.phase.isOpen = true ∧ s.i2c.nak = true
  | .i2cReadReg _ _ n, .start => n ≠ 0 ∧ s.i2c.phase.isOpen = false
  | .i2cReadReg a _ n, .addr => n ≠ 0 ∧ s.i2c = ⟨.started, .write, false, a, s.i2c.lastBs⟩
  | .i2cReadReg a _ n, .reg => n ≠ 0 ∧ s.i2c = ⟨.addressSent, .write, false, a, s.i2c.lastBs⟩
  | .i2cReadReg a _ n, .restart => n ≠ 0 ∧ s.i2c = ⟨.dataPhase, .write, false, a, s.i2c.lastBs⟩
  | .i2cReadReg a _ n, .raddr => n ≠ 0 ∧ s.i2c = ⟨.started, .read, false, a, s.i2c.lastBs⟩
  | .i2cReadReg a _ n, .data j =>
    n ≠ 0 ∧ j ≤ n ∧
      s.i2c = ⟨if j = 0 then .addressSent else .dataPhase, .read, decide (j = n), a, s.i2c.lastBs⟩
  | .i2cReadReg _ _ n, .abort => n ≠ 0 ∧ s.i2c.phase.isOpen = true ∧ s.i2c.nak = true
  | .eeGet a, .start => a < s.cfg.eeSize
  | .eePut a _, .start => a < s.cfg.eeSize
  | .eeWriteBlock a len, .start => a + len < s.cfg.eeSize
  | .eeWriteBlock a len, .block j _ => 0 < j ∧ j ≤ len ∧ a + len < s.cfg.eeSize
  | .eeReadBlock a len, .start => a + len < s.cfg.eeSize
  | .eeReadBlock a len, .block j _ => 0 < j ∧ j ≤ len ∧ a + len < s.cfg.eeSize
  | _, _ => False

/-- The invariant of the machine: it holds after power-on reset and every step keeps it. -/
structure State.Inv (s : State) : Prop where
  cfg : ParamsOk s.cfg
  /-- R37 -/
  rxPointers : s.fifo.rx.InRange s.cfg.cRx
  /-- R37 -/
  txPointers : s.fifo.tx.InRange s.cfg.cTx
  /-- each space is in canonical form and within its addresses (20_memory.md rule R70) -/
  mem : ∀ sp, Mem.Wf sp.unlisted (sp.size s.cfg) (s.mem sp)
  /-- R43 -/
  flowControl : s.cfg.fcEnable = false → s.fifo.fc = .xonSent
  /-- ALARM_PENDING = 1 implies ALARM ≠ 0 (41_event_flags.md rule R155) -/
  alarmLatch : s.flag.pending = true → s.flag.alarm ≠ 0
  /-- R51 -/
  eeIdle : s.ee.busy = false → s.ee.pend = ⟨0, .none, 0⟩
  /-- the cycle in flight lies in the array -/
  eeAddr : s.ee.busy = true → s.ee.pend.addr.toNat < s.cfg.eeSize
  /-- the cycle in flight leaves its value in its cell (43_eeprom.md rule R205) -/
  eeValue : s.ee.busy = true → ∀ old, s.peek .eemem s.ee.pend.addr.toNat = some old →
    programmed s.ee.pend.mode old s.ee.pend.value = s.ee.pend.value
  /-- R250 -/
  statuses : ∀ p, (s.res.get p).status ∈ statusCodes
  /-- only MAIN holds or runs a composite operation (R33, R60) -/
  pendOthers : ∀ p, p ≠ .main → s.pend.get p = none
  /-- MAIN's record is one its operation can have (R34) -/
  pendMain : ∀ r, s.pend.main = some r → ∃ i, decode r.word = some i ∧ stageFits s i r.stage

/-- The bytes a queue holds, oldest first: its slots from tail up to the one before head (R41). -/
def State.held (s : State) (q : QueueId) : List Byte :=
  (List.range (s.count q)).map fun j =>
    (s.peek (slotSpace q) (((s.queue q).tail.toNat + j) % capacity s.cfg q)).getD 0

/-- BUF[0 .. n - 1], with `none` for a byte nothing has written (R53). -/
def State.bufBytes (s : State) (n : Nat) : List (Option Byte) := (List.range n).map (Mem.get? s.buf)

/-- What reading BUF bytes once each, in order, gives when `k` free values have been drawn before: a written byte
is itself, and an unwritten one is the next free value (R53, assumption log 8). -/
def readsFrom : List (Option Byte) → Nat → List Byte
  | [], _ => []
  | some b :: l, k => b :: readsFrom l k
  | none :: l, k => Config.freeByte k :: readsFrom l (k + 1)

/-- The bytes that one read each of BUF[0], BUF[1], … BUF[n - 1] gives. -/
def State.bufReads (s : State) (n : Nat) : List Byte := readsFrom (s.bufBytes n) s.draws

/-- How many bytes of BUF[0 .. n - 1] nothing has written. -/
def State.unwritten (s : State) (n : Nat) : Nat := (s.bufBytes n).count none

/-- A run is finished (70_reset_and_hazards.md rule R275): every agent has issued every word of its program and every
operation has finished, and no program cycle is in flight. -/
def State.finished (s : State) : Prop :=
  (∀ p, s.prog.get p = [] ∧ s.pend.get p = none) ∧ s.ee.busy = false

/-- A run is stuck (R275): some agent is not done, and no agent has an enabled step. -/
def State.stuck (s : State) : Prop := ¬ s.finished ∧ ∀ a, s.enabled a = false

/-! ## Runs and the duty of EEA -/

/-- A run of the machine that does not stop: the state after each number of steps. -/
def IsRun (r : Nat → State) : Prop := ∀ k, step (r k) = .next (r (k + 1))

/-- EEA takes the next transition: the schedule names it, or has run out (assumption log 2). -/
def State.eeaNext (s : State) : Prop := s.sched = [] ∨ ∃ rest, s.sched = .eea :: rest

/-- The weak fairness of EEA (43_eeprom.md rule R208, 70_reset_and_hazards.md rule R276): from every point of the run on,
either EE.busy is 0 at some later point or EEA takes a transition at one. -/
def WeaklyFair (r : Nat → State) : Prop := ∀ k, ∃ m, k ≤ m ∧ ((r m).ee.busy = false ∨ (r m).eeaNext)

/-! ## What a transition leaves -/

/-- The operation of the issuing port ended with `finish(st, d)` (00_scope.md rule R13): RES, PEND and ip of that port, and
of no other. -/
def Ended (s t : State) (st : Status) (d : Half) : Prop :=
  t.res = s.res.set s.cur ⟨st.code, d⟩ ∧ t.pend = s.pend.set s.cur none ∧
    t.ip = s.ip.set s.cur (s.ip.get s.cur + 1)

/-- The operation of the issuing port goes on, with its next transition at `st` (R34). No RES is written. -/
def GoesOn (i : Instr) (s t : State) (st : Stage) : Prop :=
  t.res = s.res ∧ t.pend = s.pend.set s.cur (some ⟨encode i, st⟩) ∧ t.ip = s.ip

/-- An answer to a start that fails it, and the bus status it leaves (42_i2c.md rules R171, R185). -/
def StartFails (ans : BusAnswer) (bs : BusStatus) : Prop :=
  (ans = .lost ∧ bs = .arbLost) ∨ (ans = .berr ∧ bs = .busError)

/-- An answer `ans` to an address byte or a written byte, as the event records it (`r`), and the bus status it leaves
where an ACK leaves `onAck` and a NACK `onNack` (R171, R185, R186). -/
def ByteAnswered (onAck onNack : BusStatus) (ans : BusAnswer) (r : ByteAnswer) (bs : BusStatus) : Prop :=
  (ans = .ack ∧ r = .ack ∧ bs = onAck) ∨ (ans = .nack ∧ r = .nack ∧ bs = onNack) ∨
    (ans = .lost ∧ r = .lost ∧ bs = .arbLost) ∨ (ans = .berr ∧ r = .berr ∧ bs = .busError)

/-- A bus phase of a composite operation of MAIN has been answered: the answer is taken, the event is logged, the I2C
unit is `u`, and the operation goes on at `st` (R180, R181). Nothing else changes. -/
def State.afterPhase (i : Instr) (rest : List BusAnswer) (e : BusEvent) (u : I2cUnit) (st : Stage) (s : State) : State :=
  { s with busIn := rest, logs := { s.logs with busLog := s.logs.busLog ++ [e] }, i2c := u,
           pend := s.pend.set .main (some ⟨encode i, st⟩) }

/-- The composite operations (00_scope.md rule R17). -/
def isComposite : Instr → Bool
  | .i2cWriteReg _ _ _ | .i2cReadReg _ _ _ | .eeWriteBlock _ _ | .eeReadBlock _ _ => true
  | _ => false

/-- I2C_START and I2C_RESTART, which 20_memory.md rule R79 makes one transition and 42_i2c.md rule R185 two. -/
def isStart : Instr → Bool
  | .i2cStart _ _ | .i2cRestart _ _ => true
  | _ => false

/-- What no operation changes: the parameters, the programs still to issue, the schedule and whose transition it
is. -/
def SameAround (s t : State) : Prop :=
  t.cfg = s.cfg ∧ t.prog = s.prog ∧ t.sched = s.sched ∧ t.cur = s.cur

/-- Every byte of every space reads as before, with these exceptions. -/
def SameBytesBut (except : Space → Nat → Prop) (s t : State) : Prop :=
  ∀ sp a, ¬ except sp a → t.peek sp a = s.peek sp a

/-- Every byte of every space reads as before. -/
def SameBytes (s t : State) : Prop := SameBytesBut (fun _ _ => False) s t

/-- The flag, I2C, EE and BUF parts of the state, the answers of I2T and the logs are as before. -/
def OnlyFifo (s t : State) : Prop :=
  t.flag = s.flag ∧ t.i2c = s.i2c ∧ t.ee = s.ee ∧ t.buf = s.buf ∧ t.logs = s.logs ∧ t.busIn = s.busIn ∧
    t.draws = s.draws ∧ SameAround s t

/-- One byte was stored into queue Q (40_fifo.md rule R120): its head slot holds it and head moved on. No other byte and
no other pointer changed. -/
def StoredInto (q : QueueId) (d : Byte) (s t : State) : Prop :=
  t.peek (slotSpace q) (s.queue q).head.toNat = some d ∧
    SameBytesBut (fun sp a => sp = slotSpace q ∧ a = (s.queue q).head.toNat) s t ∧
    (t.queue q).head = nextPtr (capacity s.cfg q) (s.queue q).head ∧ (t.queue q).tail = (s.queue q).tail ∧
    ∀ r, r ≠ q → t.queue r = s.queue r

/-- One byte was taken from queue Q (R124): it is the byte of the tail slot, and tail moved on. No byte and no other
pointer changed. -/
def TakenFrom (q : QueueId) (d : Byte) (s t : State) : Prop :=
  s.peek (slotSpace q) (s.queue q).tail.toNat = some d ∧
    t.queue q = { s.queue q with tail := nextPtr (capacity s.cfg q) (s.queue q).tail } ∧
    ∀ r, r ≠ q → t.queue r = s.queue r

/-- The one port whose operations store into a queue (R38). -/
def producer : QueueId → Port
  | .rx => .rxi
  | .tx => .main

/-- The one port whose operations take from a queue (R38). -/
def consumer : QueueId → Port
  | .rx => .main
  | .tx => .txi

/-- The six units (00_scope.md rule R3). -/
inductive UnitId where
  | ctrl
  | fifo
  | flag
  | i2c
  | ee
  | buf
  deriving DecidableEq, Repr

/-- The unit of an operation: the UNIT field of its word (30_encoding.md rule R101). -/
def unitOf : Instr → UnitId
  | .nop | .csrRead _ | .ctrlReset => .ctrl
  | .fifoPushWait _ _ | .fifoPushDrop _ _ | .fifoPop _ | .fifoCount _ | .rxIngress _ | .txEgress => .fifo
  | .execRaise _ | .execClear _ | .execRead | .alarmRaise _ | .alarmClear | .alarmRead | .dispatchPeek
  | .dispatchTake => .flag
  | .i2cStart _ _ | .i2cRestart _ _ | .i2cWrite _ | .i2cReadAck | .i2cReadNack | .i2cStop
  | .i2cWriteReg _ _ _ | .i2cReadReg _ _ _ => .i2c
  | .eeGet _ | .eePut _ _ | .eeWriteBlock _ _ | .eeReadBlock _ _ => .ee
  | .bufWrite _ _ | .bufRead _ => .buf

/-- `k` transitions of one operation on the issuing port, with no other agent between them. -/
def transitions (i : Instr) : Nat → State → Out
  | 0, s => .next s
  | k + 1, s =>
    match exec i s with
    | .next t => transitions i k t
    | .fault r => .fault r
    | .refused r => .refused r

/-- The state with other alarm flags. -/
def State.withAlarm (a : BitVec 6) (pending : Bool) (s : State) : State :=
  { s with flag := { s.flag with alarm := a, pending := pending } }

/-- A word is refused as ILLEGAL: no row matches it, and the port that issues it gets ERR_ILLEGAL and nothing else
happens (R110, R112). -/
def RefusedAsIllegal (w : Word) : Prop :=
  decode w = none ∧
    ∀ (s : State) (p : Port) (rest : List Agent) (ws : List Word), s.sched = .port p :: rest → s.pend.get p = none →
      s.prog.get p = w :: ws →
        step s = .next (State.finish .errIllegal 0 { s with sched := rest, cur := p, prog := s.prog.set p ws })

/-- FC_STATE after a store into queue Q that left the state `t` (40_fifo.md rule R138). -/
def fcAfterStore (q : QueueId) (s t : State) : FcState :=
  if q = .rx ∧ s.cfg.fcEnable = true ∧ s.fifo.fc = .xonSent ∧ s.cfg.rxHigh ≤ t.count .rx then .sendXoff
  else s.fifo.fc

/-- FC_STATE after a pop of queue Q that left the state `t` (R139). -/
def fcAfterPop (q : QueueId) (s t : State) : FcState :=
  if q = .rx ∧ s.cfg.fcEnable = true ∧ s.fifo.fc = .xoffSent ∧ t.count .rx < s.cfg.rxLow then .sendXon
  else s.fifo.fc

end Sys2Proof.Machine
end

