-- ==== Sys2Proof/Certificates/Slice0/Obligations.lean ====
section
/-! DEFINITION. The statements for the provers, in the order of OBLIGATIONS.json. -/

open Sys2Proof Sys2Proof.Machine

/-! ## Encoding -/

/-- Decode and encode agree: no bit of any operand is dropped (30_encoding.md R102, R104, R105, R114). -/
def Obligations.DecodeOfEncode : Prop :=
  ∀ i : Instr, WellFormed i = true → decode (encode i) = some i

/-- Each word has one meaning: a word that decodes is the word of what it decodes to, and every operand fits its
field (R102, R104, R105, R111). -/
def Obligations.EncodeOfDecode : Prop :=
  ∀ (w : Word) (i : Instr), decode w = some i → WellFormed i = true ∧ encode i = w

/-- "No two rows match the same word" (R102). -/
def Obligations.NoWordMatchesTwoRows : Prop :=
  rows.Pairwise fun r r' => ∀ w : Word, ¬ (Row.hits w r = true ∧ Row.hits w r' = true)

/-- R111 and R112: a word of a row's unit and operation with a bit set that the row's format reserves, and a word of an
unassigned unit or operation, is ILLEGAL and returns ERR_ILLEGAL. -/
def Obligations.ReservedAndUnassignedWordsAreIllegal : Prop :=
  (∀ r ∈ rows, ∀ w : Word, field w 24 8 = field r.mtch 24 8 → w &&& r.mask ≠ r.mtch → RefusedAsIllegal w) ∧
  ∀ w : Word,
    (5 < (field w 28 4).toNat ∨ field w 24 4 = 0 ∨
      (field w 28 4 = 0 ∧ 4 ≤ (field w 24 4).toNat) ∨ (field w 28 4 = 1 ∧ 7 ≤ (field w 24 4).toNat) ∨
      (field w 28 4 = 2 ∧ 9 ≤ (field w 24 4).toNat) ∨ (field w 28 4 = 3 ∧ 9 ≤ (field w 24 4).toNat) ∨
      (field w 28 4 = 4 ∧ 5 ≤ (field w 24 4).toNat) ∨ (field w 28 4 = 5 ∧ 3 ≤ (field w 24 4).toNat) ∨
      w = 0x16000000 ∨ ∃ d : Byte, w = 0x15800000 ||| d.setWidth 32) →
    RefusedAsIllegal w

/-- R116: the encoding examples. -/
def Obligations.ExampleWordsDecode : Prop :=
  decode 0x11800041 = some (.fifoPushWait .tx 0x41) ∧ decode 0x13000000 = some (.fifoPop .rx) ∧
    decode 0x21000010 = some (.execRaise 0x10) ∧ decode 0x38520002 = some (.i2cReadReg 0x29 0x00 2) ∧
    decode 0x43006403 = some (.eeWriteBlock 100 3) ∧ decode 0x21000080 = none ∧ decode 0x37530001 = none ∧
    decode 0x00000000 = none ∧ decode 0x60000000 = none

/-! ## Steps -/

/-- A step is one transition of the agent the schedule names: EE_DONE for EEA, which also steps when the schedule has run
out, and for a port the operation it has in progress or else its next word, which runs as `exec` says if it decodes (R31,
R34, R82, R105, R110). The schedule and the programs are the model's (assumption log 2 and 3). -/
def Obligations.StepRunsIssuedWord : Prop :=
  ∀ s : State,
    (s.sched = [] → step s = eeDone s) ∧
    (∀ rest, s.sched = .eea :: rest → step s = eeDone { s with sched := rest }) ∧
    ∀ p rest, s.sched = .port p :: rest →
      (∀ r i, s.pend.get p = some r → decode r.word = some i →
        step s = exec i { s with sched := rest, cur := p }) ∧
      (∀ w ws i, s.pend.get p = none → s.prog.get p = w :: ws → decode w = some i →
        step s = exec i { s with sched := rest, cur := p, prog := s.prog.set p ws }) ∧
      (s.pend.get p = none → s.prog.get p = [] → step s = .next { s with sched := rest, cur := p })

/-- R33, the port permission table: a port it does not allow gets ERR_ILLEGAL and nothing else happens. -/
def Obligations.PortTableRefuses : Prop :=
  (∀ (i : Instr) (p : Port), allowed i p = true ↔
    match i with
    | .nop | .csrRead _ | .fifoCount _ | .execRaise _ | .alarmRaise _ | .execRead | .alarmRead | .dispatchPeek => True
    | .fifoPushWait .rx _ => False
    | .fifoPushDrop .rx _ | .rxIngress _ => p = .rxi
    | .fifoPop .tx | .txEgress => p = .txi
    | .ctrlReset | .fifoPushWait .tx _ | .fifoPushDrop .tx _ | .fifoPop .rx | .execClear _ | .alarmClear
    | .dispatchTake | .i2cStart _ _ | .i2cRestart _ _ | .i2cWrite _ | .i2cReadAck | .i2cReadNack | .i2cStop
    | .i2cWriteReg _ _ _ | .i2cReadReg _ _ _ | .eeGet _ | .eePut _ _ | .eeWriteBlock _ _ | .eeReadBlock _ _
    | .bufWrite _ _ | .bufRead _ => p = .main) ∧
  ∀ (i : Instr) (s : State), allowed i s.cur = false → exec i s = .next (s.finish .errIllegal 0)

/-- R13, R32: what `finish` writes, on the issuing port alone; and a step writes the result register of a port only when
an operation of that port finishes in it, which leaves the port between operations and past one more word. -/
def Obligations.ResultsWrittenOnlyByFinish : Prop :=
  (∀ (st : Status) (d : Half) (s : State),
    ((s.finish st d).res.get s.cur = ⟨st.code, d⟩ ∧ (s.finish st d).pend.get s.cur = none ∧
      (s.finish st d).ip.get s.cur = s.ip.get s.cur + 1) ∧
    (∀ p, p ≠ s.cur → (s.finish st d).res.get p = s.res.get p ∧ (s.finish st d).pend.get p = s.pend.get p ∧
      (s.finish st d).ip.get p = s.ip.get p) ∧
    s.finish st d = { s with res := (s.finish st d).res, pend := (s.finish st d).pend, ip := (s.finish st d).ip }) ∧
  ∀ s t : State, step s = .next t → ∀ p : Port,
    (t.res.get p = s.res.get p ∧ t.ip.get p = s.ip.get p) ∨
      ((∃ rest, s.sched = .port p :: rest) ∧ t.pend.get p = none ∧ t.ip.get p = s.ip.get p + 1)

/-! ## The invariant -/

/-- Every state after power-on reset meets the invariant, under every legal set of parameters (R60, R270), and so does
the reset state, whose parameters are the model's choice (assumption log 1). EEMEM keeps every byte over a power cycle
and the invariant holds after it (R72), and the free draws of BUF go on counting (assumption log 8); a power loss while a program cycle is in flight is not modelled (R276,
assumption log 12). -/
def Obligations.PowerOnMeetsInvariant : Prop :=
  (∀ c : Params, ParamsOk c → (State.por c).Inv) ∧ State.reset.Inv ∧
  ∀ s : State, s.Inv → s.ee.busy = false →
    ∃ t, s.powerCycle = some t ∧ t.Inv ∧ t.draws = s.draws ∧ ∀ a, t.peek .eemem a = s.peek .eemem a

/-- Every step keeps the invariant, from every state that meets it and under every schedule (R37, R43, R51, R155, R205,
R250). -/
def Obligations.StepKeepsInvariant : Prop :=
  ∀ s t : State, s.Inv → step s = .next t → t.Inv

/-- The block never traps and never faults (R17, R258): from a state that meets the invariant every step is a
transition. -/
def Obligations.InvariantStepsNeverStop : Prop :=
  ∀ s : State, s.Inv → ∃ t, step s = .next t

/-- R270: the state after power-on reset. Every agent is between operations and issues its program from its first
word, EEA has no enabled step, and EE.mem holds EE_INIT. The values are those of R60. -/
def Obligations.PowerOnValues : Prop :=
  ∀ c : Params,
    (∀ p, (State.por c).res.get p = ⟨0x00, 0x0000⟩ ∧ (State.por c).pend.get p = none ∧ (State.por c).ip.get p = 0) ∧
    (State.por c).fifo.rx.head = 0 ∧ (State.por c).fifo.rx.tail = 0 ∧ (State.por c).fifo.tx.head = 0 ∧
    (State.por c).fifo.tx.tail = 0 ∧ (State.por c).fifo.rxOvf = false ∧ (State.por c).fifo.fc = .xonSent ∧
    (State.por c).flag = ⟨0, 0, false⟩ ∧ (State.por c).i2c = ⟨.idle, .write, false, 0, .none⟩ ∧
    (State.por c).ee = ⟨c.eeInit, false, ⟨0, .none, 0⟩⟩ ∧ (State.por c).enabled .eea = false ∧
    (∀ i, (State.por c).bufWritten i = false) ∧ (State.por c).logs = ⟨[], [], []⟩ ∧ (State.por c).cfg = c

/-! ## Frames over all operations -/

/-- What no operation changes, and what only the operations of a unit change (R32, R54, R58, R262): the parameters, the
programs, the schedule and the other ports always; a unit's state, its log and its inputs by the operations of another
unit, with the exceptions named (CTRL_RESET, the EXEC write of RX_INGRESS, and the BUF bytes of the composites). -/
def Obligations.UnitFrames : Prop :=
  ∀ (i : Instr) (s t : State), exec i s = .next t →
    SameAround s t ∧
    (∀ p, p ≠ s.cur → t.res.get p = s.res.get p ∧ t.pend.get p = s.pend.get p ∧ t.ip.get p = s.ip.get p) ∧
    (unitOf i ≠ .fifo → t.logs.txLine = s.logs.txLine ∧ (i ≠ .ctrlReset → t.fifo = s.fifo)) ∧
    (unitOf i ≠ .flag → i ≠ .ctrlReset → (∀ d, i ≠ .rxIngress d) → t.flag = s.flag) ∧
    (unitOf i ≠ .i2c → t.i2c = s.i2c ∧ t.logs.busLog = s.logs.busLog ∧ t.busIn = s.busIn) ∧
    (unitOf i ≠ .ee → t.ee = s.ee ∧ t.logs.eeLog = s.logs.eeLog) ∧
    ((∀ j d, i ≠ .bufWrite j d) → (∀ a r n, i ≠ .i2cReadReg a r n) → (∀ a n, i ≠ .eeReadBlock a n) → t.buf = s.buf) ∧
    ((∀ j, i ≠ .bufRead j) → (∀ a r n, i ≠ .i2cReadReg a r n) → (∀ a r n, i ≠ .i2cWriteReg a r n) →
      (∀ a n, i ≠ .eeWriteBlock a n) → t.draws = s.draws)

/-- The operations that store no byte leave every byte of every space as it was: all but the three that store into a
queue, BUF_WRITE, I2C_READ_REG and EE_READ_BLOCK. EE_PUT and EE_WRITE_BLOCK store nothing either: only EE_DONE
writes EEMEM (R70, R79). -/
def Obligations.NonStoringOperationsKeepMemory : Prop :=
  ∀ (i : Instr) (s t : State), exec i s = .next t →
    (∀ q d, i ≠ .fifoPushWait q d) → (∀ q d, i ≠ .fifoPushDrop q d) → (∀ d, i ≠ .rxIngress d) →
    (∀ j d, i ≠ .bufWrite j d) → (∀ a r n, i ≠ .i2cReadReg a r n) → (∀ a n, i ≠ .eeReadBlock a n) →
    SameBytes s t

/-- The operations that store leave every byte but the stored ones as it was (R70): the head slot of the queue, when it
is not full; the BUF byte an instruction or a composite's data transition writes; and BUF[0 .. n - 1] when a failed
I2C_READ_REG ends (R181). -/
def Obligations.StoringOperationsKeepOtherBytes : Prop :=
  ∀ s t : State,
    (∀ q d i, i = .fifoPushWait q d ∨ i = .fifoPushDrop q d ∨ (i = .rxIngress d ∧ q = .rx) → exec i s = .next t →
      SameBytesBut (fun sp a => s.isFull q = false ∧ sp = slotSpace q ∧ a = (s.queue q).head.toNat) s t) ∧
    (∀ j d, exec (.bufWrite j d) s = .next t → SameBytesBut (fun sp a => sp = .bufmem ∧ a = j) s t) ∧
    (∀ a len, exec (.eeReadBlock a len) s = .next t →
      SameBytesBut (fun sp b => sp = .bufmem ∧ b = s.blockLoop.1 ∧ b < len) s t) ∧
    (∀ a r n, exec (.i2cReadReg a r n) s = .next t →
      SameBytesBut (fun sp b => sp = .bufmem ∧ b < n ∧ (s.stage = .data b ∨ s.stage = .abort)) s t)

/-- R80: the reads that are free of side effects change nothing but the result of the issuing port, where they end (and
the count of the model's free draws, for an unwritten BUF byte, R53). The one that may hold is EE_GET, and then only
the record of that port is written (assumption log 5). -/
def Obligations.PlainReadsChangeNothing : Prop :=
  ∀ (i : Instr) (s t : State),
    ((∃ j, i = .csrRead j) ∨ (∃ q, i = .fifoCount q) ∨ i = .execRead ∨ i = .alarmRead ∨ i = .dispatchPeek ∨
      (∃ a, i = .eeGet a) ∨ (∃ j, i = .bufRead j) ∨ i = .nop) →
    exec i s = .next t →
    ((∃ st d, t = State.finish st d { s with draws := t.draws }) ∨
      ((∃ a, i = .eeGet a) ∧ t = { s with pend := s.pend.set s.cur (some ⟨encode i, s.stage⟩) })) ∧
    (∀ p, p ≠ s.cur → t.res.get p = s.res.get p ∧ t.pend.get p = s.pend.get p ∧ t.ip.get p = s.ip.get p) ∧
    ((∀ j, i ≠ .bufRead j) → t.draws = s.draws)

/-- R251: an operation that ends with ERR_ILLEGAL, ERR_ARG, ERR_RANGE or I2C_SEQ changes nothing but its port's
result, whose data is 0. -/
def Obligations.ErrorStatusChangesNothingElse : Prop :=
  ∀ (i : Instr) (s t : State), exec i s = .next t → t.ip.get s.cur = s.ip.get s.cur + 1 →
    ∀ st, (st = .errIllegal ∨ st = .errArg ∨ st = .errRange ∨ st = .i2cSeq) →
      (t.res.get s.cur).status = st.code → t = s.finish st 0

/-- R46, R47: ALARM is set only by ALARM_RAISE and cleared only by ALARM_CLEAR and the reset; ALARM_PENDING is set only
by ALARM_RAISE with a nonzero mask and cleared only by DISPATCH_TAKE returning ALARM, ALARM_CLEAR and the reset. -/
def Obligations.AlarmWriters : Prop :=
  ∀ (i : Instr) (s t : State), exec i s = .next t →
    (t.flag.alarm = s.flag.alarm ∨ (∃ m, i = .alarmRaise m ∧ t.flag.alarm = s.flag.alarm ||| m) ∨
      ((i = .alarmClear ∨ i = .ctrlReset) ∧ t.flag.alarm = 0)) ∧
    (t.flag.pending = s.flag.pending ∨ (∃ m, i = .alarmRaise m ∧ m ≠ 0 ∧ t.flag.pending = true) ∨
      (((i = .dispatchTake ∧ s.flag.prio = .alarm) ∨ i = .alarmClear ∨ i = .ctrlReset) ∧ t.flag.pending = false))

/-- R157: an active alarm changes no operation but those that read or write the alarm itself. -/
def Obligations.AlarmChangesNoOperation : Prop :=
  ∀ (i : Instr) (s : State) (a : BitVec 6) (b : Bool),
    (∀ m, i ≠ .alarmRaise m) → i ≠ .alarmClear → i ≠ .alarmRead → i ≠ .dispatchPeek → i ≠ .dispatchTake →
    (∀ j, i ≠ .csrRead j) → i ≠ .ctrlReset →
    exec i (s.withAlarm a b) =
      match exec i s with
      | .next t => .next (t.withAlarm a b)
      | .fault r => .fault r
      | .refused r => .refused r

/-! ## Queues -/

/-- R39, R40: the pointer successor, without masking; the occupancy predicates and the range of the count. -/
def Obligations.PointersAndOccupancy : Prop :=
  (∀ (c : Nat) (x : Byte), c ≤ 256 → x.toNat < c →
    (nextPtr c x).toNat = if x.toNat + 1 = c then 0 else x.toNat + 1) ∧
  ∀ (c : Nat) (u : Queue), 2 ≤ c → c ≤ 256 → u.InRange c →
    (u.isEmpty = true ↔ u.head = u.tail) ∧ (u.isFull c = true ↔ nextPtr c u.head = u.tail) ∧
    (u.count c : Int) = ((u.head.toNat : Int) - u.tail.toNat) % c ∧
    u.count c = (if u.tail.toNat ≤ u.head.toNat then u.head.toNat - u.tail.toNat
      else c - u.tail.toNat + u.head.toNat) ∧
    u.count c ≤ c - 1 ∧ (u.isEmpty = true ↔ u.count c = 0) ∧ (u.isFull c = true ↔ u.count c = c - 1)

/-- R38: only the producer of a queue writes its head and its slots, only its consumer its tail, and CTRL_RESET, which
MAIN issues, writes both pointers. -/
def Obligations.QueueOwnership : Prop :=
  producer .rx = .rxi ∧ consumer .rx = .main ∧ producer .tx = .main ∧ consumer .tx = .txi ∧
  ∀ (i : Instr) (s t : State) (q : QueueId), exec i s = .next t →
    (i ≠ .ctrlReset → ((t.queue q).head ≠ (s.queue q).head ∨ (t.queue q).mem ≠ (s.queue q).mem → s.cur = producer q) ∧
      ((t.queue q).tail ≠ (s.queue q).tail → s.cur = consumer q)) ∧
    (i = .ctrlReset → t.queue q = s.queue q ∨ (s.cur = .main ∧ t.queue q = { s.queue q with head := 0, tail := 0 }))

/-- The FIFO order law R125, one transition at a time: what a queue holds (R41) changes only by a store that appends
its byte, by a pop that returns the oldest byte, and by CTRL_RESET. -/
def Obligations.QueueOrder : Prop :=
  ∀ (i : Instr) (s t : State) (q : QueueId), s.Inv → exec i s = .next t →
    t.held q = s.held q ∨
      (∃ d, t.held q = s.held q ++ [d] ∧ (t.res.get s.cur).status = Status.ok.code ∧
        (i = .fifoPushWait q d ∨ i = .fifoPushDrop q d ∨ (q = .rx ∧ i = .rxIngress d ∧ rtCause s.cfg d = none))) ∨
      (∃ d, s.held q = d :: t.held q ∧ t.res.get s.cur = ⟨Status.ok.code, zext16 d⟩ ∧
        (i = .fifoPop q ∨ (q = .tx ∧ i = .txEgress ∧ t.logs.txLine = s.logs.txLine ++ [d]))) ∨
      (i = .ctrlReset ∧ t.held q = [])

/-- R121: FIFO_PUSH_WAIT, its word, its port, and its three cases. -/
def Obligations.PushWaitTransition : Prop :=
  ∀ d : Byte, decode (0x11800000 ||| d.setWidth 32) = some (.fifoPushWait .tx d) ∧
    (∀ q p, allowed (.fifoPushWait q d) p = true ↔ q = .tx ∧ p = .main) ∧
    ∀ s : State, s.Inv → s.cur = .main →
      (s.isFull .tx = false → ∃ t, exec (.fifoPushWait .tx d) s = .next t ∧ StoredInto .tx d s t ∧
        Ended s t .ok 0 ∧ OnlyFifo s t ∧ t.fifo.rxOvf = s.fifo.rxOvf ∧ t.fifo.fc = s.fifo.fc) ∧
      (s.isFull .tx = true → s.flag.exec.getLsbD 4 = true →
        exec (.fifoPushWait .tx d) s = .next (s.finish .aborted 0)) ∧
      (s.isFull .tx = true → s.flag.exec.getLsbD 4 = false →
        exec (.fifoPushWait .tx d) s =
          .next { s with pend := s.pend.set .main (some ⟨encode (.fifoPushWait .tx d), s.stage⟩) })

/-- R122: FIFO_PUSH_DROP, its words, its ports, and its two cases. -/
def Obligations.PushDropTransition : Prop :=
  ∀ (q : QueueId) (d : Byte),
    decode (0x12000000 ||| (match q with | .rx => 0x00000000 | .tx => 0x00800000) ||| d.setWidth 32) =
      some (.fifoPushDrop q d) ∧
    (∀ p, allowed (.fifoPushDrop q d) p = true ↔ p = producer q) ∧
    ∀ s : State, s.Inv → s.cur = producer q →
      (s.isFull q = false → ∃ t, exec (.fifoPushDrop q d) s = .next t ∧ StoredInto q d s t ∧
        Ended s t .ok 0 ∧ OnlyFifo s t ∧ t.fifo.rxOvf = s.fifo.rxOvf ∧ t.fifo.fc = fcAfterStore q s t) ∧
      (s.isFull q = true → exec (.fifoPushDrop q d) s =
        .next (State.finish .dropped 0
          { s with fifo := { s.fifo with rxOvf := if q = .rx then true else s.fifo.rxOvf } }))

/-- R126: FIFO_POP, its words, its ports, and its two cases. -/
def Obligations.PopTransition : Prop :=
  ∀ q : QueueId,
    decode (match q with | .rx => 0x13000000 | .tx => 0x13800000) = some (.fifoPop q) ∧
    (∀ p, allowed (.fifoPop q) p = true ↔ p = consumer q) ∧
    ∀ s : State, s.Inv → s.cur = consumer q →
      (s.isEmpty q = true → exec (.fifoPop q) s =
        .next (State.finish .empty 0x00FF { s with fifo := { s.fifo with fc := fcAfterPop q s s } })) ∧
      (s.isEmpty q = false → ∃ t d, exec (.fifoPop q) s = .next t ∧ TakenFrom q d s t ∧ SameBytes s t ∧
        Ended s t .ok (zext16 d) ∧ OnlyFifo s t ∧ t.fifo.rxOvf = s.fifo.rxOvf ∧ t.fifo.fc = fcAfterPop q s t)

/-- R127: FIFO_COUNT reads the occupancy on every port, between 0 and C_Q - 1, and changes nothing. -/
def Obligations.CountTransition : Prop :=
  ∀ q : QueueId,
    decode (match q with | .rx => 0x14000000 | .tx => 0x14800000) = some (.fifoCount q) ∧
    ∀ s : State, s.Inv →
      exec (.fifoCount q) s = .next (s.finish .ok (BitVec.ofNat 16 ((s.queue q).count (capacity s.cfg q)))) ∧
      (s.queue q).count (capacity s.cfg q) ≤ capacity s.cfg q - 1 ∧
      (BitVec.ofNat 16 ((s.queue q).count (capacity s.cfg q))).toNat = (s.queue q).count (capacity s.cfg q)

/-- R132: RX_INGRESS, its word, its port, and its three cases: a real-time command is intercepted, full or not; any
other byte is stored, or dropped with RX_OVF set. -/
def Obligations.IngressTransition : Prop :=
  ∀ d : Byte, decode (0x15000000 ||| d.setWidth 32) = some (.rxIngress d) ∧
    (∀ p, allowed (.rxIngress d) p = true ↔ p = .rxi) ∧
    ∀ s : State, s.Inv → s.cur = .rxi →
      (∀ c, rtCause s.cfg d = some c → exec (.rxIngress d) s =
        .next (State.finish .intercepted (zext16 d)
          { s with flag := { s.flag with exec := s.flag.exec ||| (1#7 <<< causeBit c) } })) ∧
      (rtCause s.cfg d = none → s.isFull .rx = false → ∃ t, exec (.rxIngress d) s = .next t ∧
        StoredInto .rx d s t ∧ Ended s t .ok (zext16 d) ∧ OnlyFifo s t ∧ t.fifo.rxOvf = s.fifo.rxOvf ∧
        t.fifo.fc = fcAfterStore .rx s t) ∧
      (rtCause s.cfg d = none → s.isFull .rx = true → exec (.rxIngress d) s =
        .next (State.finish .dropped (zext16 d) { s with fifo := { s.fifo with rxOvf := true } }))

/-- R135: TX_EGRESS, its word, its port, and its four cases: a pending flow-control character goes first, then the
oldest byte of TX, and otherwise EMPTY. -/
def Obligations.EgressTransition : Prop :=
  decode 0x16800000 = some .txEgress ∧ (∀ p, allowed .txEgress p = true ↔ p = .txi) ∧
    ∀ s : State, s.Inv → s.cur = .txi →
      (s.cfg.fcEnable = true → s.fifo.fc = .sendXoff → exec .txEgress s =
        .next (State.finish .ok (0x100 ||| zext16 s.cfg.xoffChar)
          { s with fifo := { s.fifo with fc := .xoffSent },
                   logs := { s.logs with txLine := s.logs.txLine ++ [s.cfg.xoffChar] } })) ∧
      (s.cfg.fcEnable = true → s.fifo.fc = .sendXon → exec .txEgress s =
        .next (State.finish .ok (0x100 ||| zext16 s.cfg.xonChar)
          { s with fifo := { s.fifo with fc := .xonSent },
                   logs := { s.logs with txLine := s.logs.txLine ++ [s.cfg.xonChar] } })) ∧
      (¬ (s.cfg.fcEnable = true ∧ (s.fifo.fc = .sendXoff ∨ s.fifo.fc = .sendXon)) →
        (s.isEmpty .tx = true → exec .txEgress s = .next (s.finish .empty 0x00FF)) ∧
        (s.isEmpty .tx = false → ∃ t d, exec .txEgress s = .next t ∧ TakenFrom .tx d s t ∧ SameBytes s t ∧
          Ended s t .ok (zext16 d) ∧ OnlyFifo s { t with logs := s.logs } ∧
          t.logs = { s.logs with txLine := s.logs.txLine ++ [d] } ∧
          t.fifo.rxOvf = s.fifo.rxOvf ∧ t.fifo.fc = s.fifo.fc))

/-- R140: the transitions of FC_STATE, and that any other event leaves it; R141: with FC_ENABLE false it never
changes. CTRL_RESET sets it to XonSent (R233). -/
def Obligations.FlowControlTransitions : Prop :=
  ∀ (i : Instr) (s t : State), s.Inv → exec i s = .next t →
    (s.cfg.fcEnable = false → t.fifo.fc = s.fifo.fc) ∧
    (i ≠ .ctrlReset →
      match s.fifo.fc with
      | .xonSent =>
        t.fifo.fc = if s.cfg.fcEnable = true ∧ (s.held .rx).length < (t.held .rx).length ∧
            s.cfg.rxHigh ≤ t.count .rx then .sendXoff else .xonSent
      | .sendXoff =>
        t.fifo.fc = if i = .txEgress ∧ s.cur = .txi then .xoffSent else .sendXoff
      | .xoffSent =>
        t.fifo.fc = if s.cfg.fcEnable = true ∧ i = .fifoPop .rx ∧ s.cur = .main ∧ t.count .rx < s.cfg.rxLow
          then .sendXon else .xoffSent
      | .sendXon =>
        t.fifo.fc = if i = .txEgress ∧ s.cur = .txi then .xonSent else .sendXon)

/-! ## Flags -/

/-- R151, R152: EXEC_RAISE and EXEC_CLEAR, their words, their ports and their effect. -/
def Obligations.ExecRaiseAndClearTransitions : Prop :=
  ∀ m : BitVec 7,
    decode (0x21000000 ||| m.setWidth 32) = some (.execRaise m) ∧
    decode (0x22000000 ||| m.setWidth 32) = some (.execClear m) ∧
    (∀ p, allowed (.execRaise m) p = true ∧ (allowed (.execClear m) p = true ↔ p = .main)) ∧
    ∀ s : State,
      exec (.execRaise m) s =
        .next (State.finish .ok (s.flag.exec.setWidth 16)
          { s with flag := { s.flag with exec := s.flag.exec ||| m } }) ∧
      (s.cur = .main → exec (.execClear m) s =
        .next (State.finish .ok (s.flag.exec.setWidth 16)
          { s with flag := { s.flag with exec := s.flag.exec &&& ~~~m } }))

/-- R154, R155: ALARM_RAISE and ALARM_CLEAR, and that a pending alarm is an alarm that is raised. -/
def Obligations.AlarmRaiseAndClearTransitions : Prop :=
  (∀ m : BitVec 6, decode (0x24000000 ||| m.setWidth 32) = some (.alarmRaise m) ∧
    (∀ p, allowed (.alarmRaise m) p = true) ∧
    ∀ s : State, exec (.alarmRaise m) s =
      .next (State.finish .ok (s.flag.alarm.setWidth 16)
        { s with flag := { s.flag with alarm := s.flag.alarm ||| m,
                                       pending := if m ≠ 0 then true else s.flag.pending } })) ∧
  decode 0x25000000 = some .alarmClear ∧ (∀ p, allowed .alarmClear p = true ↔ p = .main) ∧
  (∀ s : State, s.cur = .main → exec .alarmClear s =
    .next (State.finish .ok (s.flag.alarm.setWidth 16)
      { s with flag := { s.flag with alarm := 0, pending := false } })) ∧
  ∀ s : State, s.Inv → s.flag.pending = true → s.flag.alarm ≠ 0

/-- R153, R156: EXEC_READ and ALARM_READ; the bits of the second result are named one by one. -/
def Obligations.FlagReadTransitions : Prop :=
  decode 0x23000000 = some .execRead ∧ decode 0x26000000 = some .alarmRead ∧
  (∀ p, allowed .execRead p = true ∧ allowed .alarmRead p = true) ∧
  ∀ s : State, exec .execRead s = .next (s.finish .ok (s.flag.exec.setWidth 16)) ∧
    ∃ d : Half, exec .alarmRead s = .next (s.finish .ok d) ∧ d.extractLsb' 0 6 = s.flag.alarm ∧
      d.extractLsb' 6 2 = 0 ∧ d.getLsbD 8 = s.flag.pending ∧ d.extractLsb' 9 7 = 0

/-- R161, R162: the dispatch code is the smallest nonzero code whose condition holds, and 0 if none holds. -/
def Obligations.DispatchPriority : Prop :=
  ∀ f : FlagUnit,
    let isPending (k : Nat) : Prop :=
      (k = 1 ∧ f.exec.getLsbD 4 = true) ∨ (k = 2 ∧ f.pending = true) ∨ (k = 3 ∧ f.exec.getLsbD 5 = true) ∨
      (k = 4 ∧ f.exec.getLsbD 6 = true) ∨ (k = 5 ∧ f.exec.getLsbD 3 = true) ∨ (k = 6 ∧ f.exec.getLsbD 1 = true) ∨
      (k = 7 ∧ f.exec.getLsbD 2 = true) ∨ (k = 8 ∧ f.exec.getLsbD 0 = true)
    (∀ k, isPending k → f.prio.code.toNat ≤ k) ∧
      (isPending f.prio.code.toNat ∨ (f.prio.code = 0 ∧ ∀ k, ¬ isPending k))

/-- R163, R164: DISPATCH_PEEK and DISPATCH_TAKE return the code in [3:0] and, for code 2, ALARM in [15:8]; PEEK clears
nothing, and TAKE clears the one bit of its code and keeps ALARM. -/
def Obligations.DispatchTransitions : Prop :=
  decode 0x27000000 = some .dispatchPeek ∧ decode 0x28000000 = some .dispatchTake ∧
  (∀ p, allowed .dispatchPeek p = true ∧ (allowed .dispatchTake p = true ↔ p = .main)) ∧
  ∀ s : State, ∃ d : Half,
    d.extractLsb' 0 4 = s.flag.prio.code ∧ d.extractLsb' 4 4 = 0 ∧
    d.extractLsb' 8 8 = (if s.flag.prio.code = 2 then s.flag.alarm.setWidth 8 else 0) ∧
    exec .dispatchPeek s = .next (s.finish .ok d) ∧
    (s.cur = .main → exec .dispatchTake s =
      .next (State.finish .ok d
        { s with flag := { exec := s.flag.exec &&& ~~~(match s.flag.prio.code.toNat with
                             | 1 => 0x10#7 | 3 => 0x20#7 | 4 => 0x40#7 | 5 => 0x08#7 | 6 => 0x02#7 | 7 => 0x04#7
                             | 8 => 0x01#7 | _ => 0x00#7),
                           alarm := s.flag.alarm,
                           pending := if s.flag.prio.code = 2 then false else s.flag.pending } }))

/-- R165: eight TAKEs drain any flags that are raised by nobody in between; a ninth returns code 0, and ALARM is
kept. -/
def Obligations.EightTakesDrainTheFlags : Prop :=
  ∀ s : State, s.cur = .main → ∃ t, transitions .dispatchTake 8 s = .next t ∧
    t.flag.exec = 0 ∧ t.flag.pending = false ∧ t.flag.alarm = s.flag.alarm ∧ t.flag.prio = .none

/-! ## I2C -/

/-- R172: the operations that are not legal in the I2C phase end with I2C_SEQ, put nothing on the bus and change no
other state. For a composite this is its first transition. -/
def Obligations.IllegalPhaseIsI2cSeq : Prop :=
  ∀ s : State, s.cur = .main →
    ((s.i2c.phase = .idle ∨ s.i2c.phase = .started ∨ s.i2c.phase = .stopped ∨ s.i2c.dir = .read ∨
        s.i2c.nak = true) → ∀ d, exec (.i2cWrite d) s = .next (s.finish .i2cSeq 0)) ∧
    ((s.i2c.phase = .idle ∨ s.i2c.phase = .started ∨ s.i2c.phase = .stopped ∨ s.i2c.dir = .write ∨
        s.i2c.nak = true) →
      exec .i2cReadAck s = .next (s.finish .i2cSeq 0) ∧ exec .i2cReadNack s = .next (s.finish .i2cSeq 0)) ∧
    (s.stage = .start → (s.i2c.phase = .started ∨ s.i2c.phase = .addressSent ∨ s.i2c.phase = .dataPhase) →
      ∀ a r n, exec (.i2cWriteReg a r n) s = .next (s.finish .i2cSeq 0) ∧
        (n ≠ 0 → exec (.i2cReadReg a r n) s = .next (s.finish .i2cSeq 0)))

/-- R173, R174, R184, R185: the address byte, and I2C_START and I2C_RESTART for every answer of I2T. A failed start sends
no address byte. Where `startAtomic` is false they are the two transitions of R185, and where it is true the one transition
of R79 with the effect of both (assumption log 23). -/
def Obligations.StartTransitions : Prop :=
  (∀ (a : BitVec 7) (rw : Dir), (addrByte a rw).extractLsb' 1 7 = a ∧
    (addrByte a rw).getLsbD 0 = decide (rw = .read) ∧
    (addrByte a rw).toNat = 2 * a.toNat + (if rw = .read then 1 else 0)) ∧
  (∀ (a : BitVec 7) (rw : Dir),
    decode (0x31000000 ||| (a.setWidth 32 <<< 17) ||| (if rw = Dir.read then 0x00010000 else 0)) =
      some (.i2cStart a rw) ∧
    decode (0x32000000 ||| (a.setWidth 32 <<< 17) ||| (if rw = Dir.read then 0x00010000 else 0)) =
      some (.i2cRestart a rw)) ∧
  ∀ (a : BitVec 7) (rw : Dir) (i : Instr), i = .i2cStart a rw ∨ i = .i2cRestart a rw →
    (∀ p, allowed i p = true ↔ p = .main) ∧
    ∀ (s : State) (rest : List BusAnswer), s.cur = .main →
      let wasOpen := s.i2c.phase = .started ∨ s.i2c.phase = .addressSent ∨ s.i2c.phase = .dataPhase
      (s.cfg.startAtomic = false → s.stage = .start → s.busIn = .ok :: rest → exec i s =
        .next { s with busIn := rest, pend := s.pend.set .main (some ⟨encode i, .addr⟩),
                       logs := { s.logs with busLog := s.logs.busLog ++ [if wasOpen then .sr else .s] },
                       i2c := ⟨.started, rw, false, a, if wasOpen then .repStart else .start⟩ }) ∧
      (∀ ans bs, (ans = .lost ∧ bs = .arbLost) ∨ (ans = .berr ∧ bs = .busError) → s.stage = .start →
        s.busIn = ans :: rest → exec i s =
          .next (State.finish .i2cFail (zext16 bs.code)
            { s with busIn := rest, logs := { s.logs with busLog := s.logs.busLog ++ [.sf bs] },
                     i2c := ⟨.started, rw, true, a, bs⟩ })) ∧
      (∀ ans r bs,
        (ans = .ack ∧ r = .ack ∧ bs = (if rw = .read then .addrRAck else .addrWAck)) ∨
        (ans = .nack ∧ r = .nack ∧ bs = (if rw = .read then .addrRNack else .addrWNack)) ∨
        (ans = .lost ∧ r = .lost ∧ bs = .arbLost) ∨ (ans = .berr ∧ r = .berr ∧ bs = .busError) →
        s.stage = .addr → s.busIn = ans :: rest → exec i s =
          .next (State.finish (if r = .ack then .ok else .i2cFail) (zext16 bs.code)
            { s with busIn := rest,
                     logs := { s.logs with busLog := s.logs.busLog ++ [.a (addrByte a rw) r] },
                     i2c := { s.i2c with phase := .addressSent, nak := decide (r ≠ .ack), lastBs := bs } })) ∧
      (∀ ans r bs,
        ByteAnswered (if rw = .read then .addrRAck else .addrWAck) (if rw = .read then .addrRNack else .addrWNack)
          ans r bs →
        s.cfg.startAtomic = true → s.stage = .start → s.busIn = .ok :: ans :: rest → exec i s =
          .next (State.finish (if r = .ack then .ok else .i2cFail) (zext16 bs.code)
            { s with busIn := rest,
                     logs := { s.logs with
                       busLog := s.logs.busLog ++ [if wasOpen then .sr else .s, .a (addrByte a rw) r] },
                     i2c := ⟨.addressSent, rw, decide (r ≠ .ack), a, bs⟩ }))

/-- A whole I2C_START or I2C_RESTART that I2T acknowledges ends with OK, phase AddressSent and the bus events of R185
(R173, R174, R179), in the two transitions of R185 or in the one of R79 (assumption log 23). -/
def Obligations.AcknowledgedStartCompletes : Prop :=
  ∀ (a : BitVec 7) (rw : Dir) (i : Instr) (s : State) (rest : List BusAnswer),
    i = .i2cStart a rw ∨ i = .i2cRestart a rw → s.cur = .main → s.stage = .start → s.busIn = .ok :: .ack :: rest →
    ∃ t, transitions i (if s.cfg.startAtomic then 1 else 2) s = .next t ∧ t.i2c.phase = .addressSent ∧ t.i2c.dir = rw ∧ t.i2c.nak = false ∧
      t.i2c.addr = a ∧ t.busIn = rest ∧ t.ip.main = s.ip.main + 1 ∧ t.pend.main = none ∧
      t.res.main = ⟨0x00, if rw = .read then 0x0005 else 0x0003⟩ ∧
      t.logs.busLog = s.logs.busLog ++
        [if s.i2c.phase.isOpen then .sr else .s, .a (addrByte a rw) .ack]

/-- R175, R186: I2C_WRITE in a phase where it is legal, for every answer of I2T. -/
def Obligations.BusWriteTransition : Prop :=
  ∀ d : Byte, decode (0x33000000 ||| d.setWidth 32) = some (.i2cWrite d) ∧
    (∀ p, allowed (.i2cWrite d) p = true ↔ p = .main) ∧
    ∀ (s : State) (rest : List BusAnswer) (ans : BusAnswer) (r : ByteAnswer) (bs : BusStatus), s.cur = .main →
      s.i2c.phase = .addressSent ∨ s.i2c.phase = .dataPhase → s.i2c.dir = .write → s.i2c.nak = false →
      (ans = .ack ∧ r = .ack ∧ bs = .dataWAck) ∨ (ans = .nack ∧ r = .nack ∧ bs = .dataWNack) ∨
        (ans = .lost ∧ r = .lost ∧ bs = .arbLost) ∨ (ans = .berr ∧ r = .berr ∧ bs = .busError) →
      s.busIn = ans :: rest →
      exec (.i2cWrite d) s =
        .next (State.finish (if r = .ack then .ok else .i2cFail) (zext16 bs.code)
          { s with busIn := rest, logs := { s.logs with busLog := s.logs.busLog ++ [.w d r] },
                   i2c := { s.i2c with phase := .dataPhase, nak := decide (r ≠ .ack), lastBs := bs } })

/-- R176, R177, R187: I2C_READ_ACK and I2C_READ_NACK in a phase where they are legal: any byte I2T supplies is the
result. -/
def Obligations.BusReadTransitions : Prop :=
  decode 0x34000000 = some .i2cReadAck ∧ decode 0x35000000 = some .i2cReadNack ∧
  (∀ p, (allowed .i2cReadAck p = true ↔ p = .main) ∧ (allowed .i2cReadNack p = true ↔ p = .main)) ∧
  ∀ (s : State) (rest : List BusAnswer) (b : Byte), s.cur = .main →
    s.i2c.phase = .addressSent ∨ s.i2c.phase = .dataPhase → s.i2c.dir = .read → s.i2c.nak = false →
    s.busIn = .byte b :: rest →
    exec .i2cReadAck s =
      .next (State.finish .ok (b.setWidth 16)
        { s with busIn := rest, logs := { s.logs with busLog := s.logs.busLog ++ [.r b .ack] },
                 i2c := { s.i2c with phase := .dataPhase, nak := false, lastBs := .dataRAck } }) ∧
    exec .i2cReadNack s =
      .next (State.finish .ok (b.setWidth 16)
        { s with busIn := rest, logs := { s.logs with busLog := s.logs.busLog ++ [.r b .nack] },
                 i2c := { s.i2c with phase := .dataPhase, nak := true, lastBs := .dataRNack } })

/-- R178, R188: I2C_STOP: with a transaction open it sends P, and otherwise it puts nothing on the bus and changes
nothing. -/
def Obligations.BusStopTransition : Prop :=
  decode 0x36000000 = some .i2cStop ∧ (∀ p, allowed .i2cStop p = true ↔ p = .main) ∧
  ∀ (s : State) (rest : List BusAnswer), s.cur = .main →
    (s.i2c.phase = .started ∨ s.i2c.phase = .addressSent ∨ s.i2c.phase = .dataPhase → s.busIn = .done :: rest →
      exec .i2cStop s =
        .next (State.finish .ok 0x000D
          { s with busIn := rest, logs := { s.logs with busLog := s.logs.busLog ++ [.p] },
                   i2c := ⟨.stopped, .write, false, s.i2c.addr, .stop⟩ })) ∧
    (s.i2c.phase = .idle ∨ s.i2c.phase = .stopped →
      exec .i2cStop s = .next (s.finish .ok (zext16 s.i2c.lastBs.code)))

/-- R13, R255: `State.holds` says exactly when the issuing port has no enabled step. While it holds nothing but the
port's own record changes, and when it does not, its transition ends the operation or goes on to a later stage. An
operation that is no composite ends in the one transition it takes (R79), I2C_START and I2C_RESTART where `startAtomic` is
true or their start condition is sent (assumption log 23). -/
def Obligations.HoldsExactlyWhenNothingMoves : Prop :=
  ∀ (i : Instr) (s : State),
    (s.holds i = true → exec i s = .next { s with pend := s.pend.set s.cur (some ⟨encode i, s.stage⟩) }) ∧
    (s.holds i = false → ∀ t, exec i s = .next t →
      t.ip.get s.cur = s.ip.get s.cur + 1 ∨ ∃ st, st ≠ s.stage ∧ t.pend.get s.cur = some ⟨encode i, st⟩) ∧
    (isComposite i = false → (isStart i = true → s.cfg.startAtomic = true ∨ s.stage = .addr) → s.holds i = false →
      ∀ t, exec i s = .next t → t.ip.get s.cur = s.ip.get s.cur + 1)

/-- R180: an I2C_WRITE_REG that I2T acknowledges throughout sends the bytes of BUF in order with one stop, and returns
(OK, 0). A byte of BUF that nothing has written is sent as the free value of its draw (R53, assumption log 8). -/
def Obligations.WriteRegCompletes : Prop :=
  ∀ (a : BitVec 7) (reg : Byte) (n : Nat) (s : State) (rest : List BusAnswer),
    n < 256 → s.cur = .main → s.stage = .start → s.i2c.phase = .idle ∨ s.i2c.phase = .stopped →
    s.busIn = .ok :: (List.replicate (n + 2) .ack ++ .done :: rest) →
    ∃ t, transitions (.i2cWriteReg a reg n) (n + 4) s = .next t ∧
      t.res.main = ⟨0x00, 0x0000⟩ ∧ t.pend.main = none ∧ t.ip.main = s.ip.main + 1 ∧ t.busIn = rest ∧
      t.i2c = ⟨.stopped, .write, false, a, .stop⟩ ∧ t.buf = s.buf ∧
      t.draws = s.draws + s.unwritten n ∧
      t.logs.busLog = s.logs.busLog ++
        ([.s, .a (addrByte a .write) .ack, .w reg .ack] ++ (s.bufReads n).map (fun b => .w b .ack) ++ [.p])

/-- R181: an I2C_READ_REG that I2T acknowledges throughout stores the bytes it receives in BUF in bus order, with one
stop, and returns the first. -/
def Obligations.ReadRegCompletes : Prop :=
  ∀ (a : BitVec 7) (reg b : Byte) (bytes : List Byte) (s : State) (rest : List BusAnswer),
    bytes.length + 1 < 256 → s.cur = .main → s.stage = .start → s.i2c.phase = .idle ∨ s.i2c.phase = .stopped →
    s.busIn = .ok :: .ack :: .ack :: .ok :: .ack :: ((b :: bytes).map BusAnswer.byte ++ .done :: rest) →
    ∃ t, transitions (.i2cReadReg a reg (bytes.length + 1)) (bytes.length + 7) s = .next t ∧
      t.res.main = ⟨0x00, b.setWidth 16⟩ ∧ t.pend.main = none ∧ t.ip.main = s.ip.main + 1 ∧ t.busIn = rest ∧
      t.i2c = ⟨.stopped, .write, false, a, .stop⟩ ∧ t.bufBytes (bytes.length + 1) = (b :: bytes).map some ∧
      t.logs.busLog = s.logs.busLog ++
        ([.s, .a (addrByte a .write) .ack, .w reg .ack, .sr, .a (addrByte a .read) .ack] ++
          (b :: bytes).dropLast.map (fun d => .r d .ack) ++ [.r ((b :: bytes).getLast (by simp)) .nack] ++ [.p])

/-- Where a composite fails, and how a failed one ends (R180, R181, R185 to R188). Every phase of I2C_WRITE_REG and
I2C_READ_REG, for every answer: a LOST or BERR start and a NACK, LOST or BERR of a byte log the event, leave nak = 1 and
the bus status of that phase in last_bs, and lead to the stop; any other answer leads to the next phase. After the stop
I2C_WRITE_REG returns the bus status of the failing phase, and I2C_READ_REG returns 0 with BUF[0 .. n - 1] zeroed.
I2C_READ_REG with COUNT = 0 is ERR_ARG before the phase check (R256). The answers are a list of the model (assumption log
4), and an unwritten BUF byte is sent as a free value (log 8). -/
def Obligations.FailedCompositeEnds : Prop :=
  ∀ (a : BitVec 7) (reg : Byte) (n : Nat) (s : State) (rest : List BusAnswer), n < 256 → s.cur = .main →
    (∀ i, i = .i2cWriteReg a reg n ∨ (i = .i2cReadReg a reg n ∧ n ≠ 0) →
      (s.stage = .start → s.i2c.phase = .idle ∨ s.i2c.phase = .stopped →
        (s.busIn = .ok :: rest → exec i s =
          .next (s.afterPhase i rest .s ⟨.started, .write, false, a, .start⟩ .addr)) ∧
        (∀ ans bs, StartFails ans bs → s.busIn = ans :: rest → exec i s =
          .next (s.afterPhase i rest (.sf bs) ⟨.started, .write, true, a, bs⟩ .abort))) ∧
      (s.stage = .addr → ∀ ans r bs, ByteAnswered .addrWAck .addrWNack ans r bs → s.busIn = ans :: rest → exec i s =
        .next (s.afterPhase i rest (.a (addrByte a .write) r)
          { s.i2c with phase := .addressSent, nak := decide (r ≠ .ack), lastBs := bs }
          (if r = .ack then .reg else .abort))) ∧
      (s.stage = .reg → ∀ ans r bs, ByteAnswered .dataWAck .dataWNack ans r bs → s.busIn = ans :: rest → exec i s =
        .next (s.afterPhase i rest (.w reg r)
          { s.i2c with phase := .dataPhase, nak := decide (r ≠ .ack), lastBs := bs }
          (if r ≠ .ack then .abort else if i = .i2cWriteReg a reg n then .data 0 else .restart)))) ∧
    (∀ j, s.stage = .data j → j < n → ∀ ans r bs, ByteAnswered .dataWAck .dataWNack ans r bs → s.busIn = ans :: rest →
      exec (.i2cWriteReg a reg n) s =
        .next (State.afterPhase (.i2cWriteReg a reg n) rest
          (.w ((Mem.get? s.buf j).getD (Config.freeByte s.draws)) r)
          { s.i2c with phase := .dataPhase, nak := decide (r ≠ .ack), lastBs := bs }
          (if r = .ack then .data (j + 1) else .abort)
          { s with draws := if s.bufWritten j then s.draws else s.draws + 1 })) ∧
    (n ≠ 0 →
      (s.stage = .restart →
        (s.busIn = .ok :: rest → exec (.i2cReadReg a reg n) s =
          .next (s.afterPhase (.i2cReadReg a reg n) rest (if s.i2c.phase.isOpen then .sr else .s)
            ⟨.started, .read, false, a, if s.i2c.phase.isOpen then .repStart else .start⟩ .raddr)) ∧
        (∀ ans bs, StartFails ans bs → s.busIn = ans :: rest → exec (.i2cReadReg a reg n) s =
          .next (s.afterPhase (.i2cReadReg a reg n) rest (.sf bs) ⟨.started, .read, true, a, bs⟩ .abort))) ∧
      (s.stage = .raddr → ∀ ans r bs, ByteAnswered .addrRAck .addrRNack ans r bs → s.busIn = ans :: rest →
        exec (.i2cReadReg a reg n) s =
          .next (s.afterPhase (.i2cReadReg a reg n) rest (.a (addrByte a .read) r)
            { s.i2c with phase := .addressSent, nak := decide (r ≠ .ack), lastBs := bs }
            (if r = .ack then .data 0 else .abort))) ∧
      (∀ j b, s.stage = .data j → j < n → s.busIn = .byte b :: rest →
        ∃ m, (∀ k, Mem.get? m k = if k = j then some b else Mem.get? s.buf k) ∧
          exec (.i2cReadReg a reg n) s =
            .next (State.afterPhase (.i2cReadReg a reg n) rest (.r b (if j + 1 < n then .ack else .nack))
              { s.i2c with phase := .dataPhase, nak := decide (j + 1 = n),
                           lastBs := if j + 1 < n then .dataRAck else .dataRNack }
              (.data (j + 1)) { s with buf := m }))) ∧
    (s.stage = .abort → s.i2c.phase.isOpen = true → s.busIn = .done :: rest →
      exec (.i2cWriteReg a reg n) s =
        .next (State.finish .i2cFail (zext16 s.i2c.lastBs.code)
          { s with busIn := rest, logs := { s.logs with busLog := s.logs.busLog ++ [.p] },
                   i2c := ⟨.stopped, .write, false, s.i2c.addr, .stop⟩ }) ∧
      (n ≠ 0 → ∃ t, exec (.i2cReadReg a reg n) s = .next t ∧ Ended s t .i2cFail 0 ∧
        t.i2c = ⟨.stopped, .write, false, s.i2c.addr, .stop⟩ ∧ t.logs.busLog = s.logs.busLog ++ [.p] ∧
        ∀ j, Mem.get? t.buf j = if j < n then some 0 else Mem.get? s.buf j)) ∧
    exec (.i2cReadReg a reg 0) s = .next (s.finish .errArg 0)

/-- R182, the transaction-safety law, under every interleaving: from the moment MAIN is about to issue a composite until
it has finished, BUS_LOG grows by events of which exactly the last is P, unless it finished with I2C_SEQ or
ERR_ARG. -/
def Obligations.OneStopPerComposite : Prop :=
  ∀ (i : Instr) (s t : State) (ws : List Word) (k : Nat),
    (∃ a r n, i = .i2cWriteReg a r n ∨ i = .i2cReadReg a r n) → WellFormed i = true → s.Inv →
    s.pend.main = none → s.prog.main = encode i :: ws → Sys2Proof.core.run k s = .next t →
    t.pend.main = none → t.ip.main = s.ip.main + 1 →
    t.res.main.status ≠ Status.i2cSeq.code → t.res.main.status ≠ Status.errArg.code →
    ∃ evs, t.logs.busLog = s.logs.busLog ++ evs ++ [.p] ∧ BusEvent.p ∉ evs

/-! ## EEPROM -/

/-- R201: the mode by the bits that change: NONE when nothing changes, WRITE_ONLY when bits only go 1 to 0, and an erase
when some bit goes 0 to 1, alone exactly when the new byte is all ones. -/
def Obligations.ClassifyByChangedBits : Prop :=
  ∀ old new : Byte,
    (classify old new = .none ↔ old = new) ∧
    (classify old new = .writeOnly ↔ old ≠ new ∧ ∀ k, new.getLsbD k = true → old.getLsbD k = true) ∧
    (classify old new = .eraseOnly ↔ new = 0xFF ∧ ∃ k, old.getLsbD k = false ∧ new.getLsbD k = true) ∧
    (classify old new = .eraseWrite ↔ new ≠ 0xFF ∧ ∃ k, old.getLsbD k = false ∧ new.getLsbD k = true)

/-- R205, the stored-value law: once the cycle of an EE_PUT has ended, its address holds the new byte in every mode, and
no other byte changed; with NONE it held it already and no cycle starts. ERASE_ONLY is chosen only for 0xFF, and
WRITE_ONLY only when every bit set in the new byte is set in the old one. -/
def Obligations.PutStoresItsValue : Prop :=
  (∀ old new : Byte, (classify old new = .eraseOnly → new = 0xFF) ∧
    (classify old new = .writeOnly → (old ^^^ new) &&& new = 0 ∧ old &&& new = new)) ∧
  ∀ (a : Nat) (v : Byte) (s t : State), s.Inv → a < s.cfg.eeSize → s.cur = .main → s.ee.busy = false →
    exec (.eePut a v) s = .next t →
    (t.ee.busy = false → s.peek .eemem a = some v ∧ SameBytes s t) ∧
    (t.ee.busy = true → ∃ u, eeDone t = .next u ∧ u.ee.busy = false ∧ u.peek .eemem a = some v ∧
      SameBytesBut (fun sp b => sp = .eemem ∧ b = a) s u)

/-- R208: EE_DONE is enabled exactly while EE.busy = 1; it programs the cell by its mode, clears EE.busy and EE.pend,
and writes no RES register. It is weakly fair in every run, and the machine is idle again at the latest one step after
the schedule has run out (R276; the schedule, and that EEA steps when it has run out, are the model's, assumption log
2). -/
def Obligations.EeDoneTransition : Prop :=
  (∀ r, IsRun r → WeaklyFair r) ∧
  (∀ s : State, s.Inv → ∃ t, Sys2Proof.core.run (s.sched.length + 1) s = .next t ∧ t.ee.busy = false) ∧
  ∀ s : State, s.Inv →
    (s.enabled .eea = s.ee.busy) ∧
    (s.ee.busy = false → eeDone s = .next s) ∧
    (s.ee.busy = true → ∃ old t, s.peek .eemem s.ee.pend.addr.toNat = some old ∧ eeDone s = .next t ∧
      t.peek .eemem s.ee.pend.addr.toNat =
        some (match s.ee.pend.mode with
          | .none => old
          | .eraseOnly => 0xFF
          | .writeOnly => old &&& s.ee.pend.value
          | .eraseWrite => s.ee.pend.value) ∧
      SameBytesBut (fun sp b => sp = .eemem ∧ b = s.ee.pend.addr.toNat) s t ∧
      t = { s with ee := ⟨t.ee.mem, false, ⟨0, .none, 0⟩⟩ })

/-- R207, R219: an EEPROM address or range that is not in the array ends with ERR_RANGE at once, busy or not; an
operation in range holds while a program cycle is in flight, and nothing else changes. -/
def Obligations.RangeErrorThenHold : Prop :=
  (∀ (s : State) (a len : Nat) (v : Byte), s.cur = .main →
    (s.cfg.eeSize ≤ a → exec (.eeGet a) s = .next (s.finish .errRange 0) ∧
      exec (.eePut a v) s = .next (s.finish .errRange 0)) ∧
    (s.cfg.eeSize ≤ a + len → exec (.eeWriteBlock a len) s = .next (s.finish .errRange 0) ∧
      exec (.eeReadBlock a len) s = .next (s.finish .errRange 0))) ∧
  ∀ (s : State) (i : Instr) (a len : Nat) (v : Byte), s.cur = .main → s.ee.busy = true →
    (a < s.cfg.eeSize ∧ (i = .eeGet a ∨ i = .eePut a v)) ∨
      (a + len < s.cfg.eeSize ∧ (i = .eeWriteBlock a len ∨ i = .eeReadBlock a len)) →
    exec i s = .next { s with pend := s.pend.set .main (some ⟨encode i, s.stage⟩) }

/-- R203, R204: EE_GET and EE_PUT, their words, their ports and their results: ERR_RANGE outside the array, a hold while a
cycle is in flight, and otherwise the byte (EE_GET) or one of two cases (EE_PUT): the byte is stored already and
nothing starts, or a cycle starts in the mode of R201 and the operation ends with that mode. -/
def Obligations.GetAndPutTransitions : Prop :=
  (∀ (a : BitVec 16) (v : Byte),
    decode (0x41000000 ||| (a.setWidth 32 <<< 8)) = some (.eeGet a.toNat) ∧
    decode (0x42000000 ||| (a.setWidth 32 <<< 8) ||| v.setWidth 32) = some (.eePut a.toNat v)) ∧
  ∀ (a : Nat) (v : Byte),
    (∀ p, (allowed (.eeGet a) p = true ↔ p = .main) ∧ (allowed (.eePut a v) p = true ↔ p = .main)) ∧
    (∀ s : State, s.cur = .main → s.cfg.eeSize ≤ a → exec (.eeGet a) s = .next (s.finish .errRange 0) ∧
      exec (.eePut a v) s = .next (s.finish .errRange 0)) ∧
    (∀ (s : State) (i : Instr), i = .eeGet a ∨ i = .eePut a v → s.cur = .main → a < s.cfg.eeSize → s.ee.busy = true →
      exec i s = .next { s with pend := s.pend.set .main (some ⟨encode i, s.stage⟩) }) ∧
    ∀ s : State, s.cur = .main → a < s.cfg.eeSize → s.ee.busy = false →
      ∃ old, s.peek .eemem a = some old ∧
        exec (.eeGet a) s = .next (s.finish .ok (old.setWidth 16)) ∧
        (classify old v = .none → exec (.eePut a v) s = .next (s.finish .ok 0)) ∧
        (classify old v ≠ .none → exec (.eePut a v) s =
          .next (State.finish .ok (zext16 (classify old v).code)
            { s with ee := { s.ee with busy := true, pend := ⟨BitVec.ofNat 16 a, classify old v, v⟩ },
                     logs := { s.logs with
                       eeLog := s.logs.eeLog ++ [⟨BitVec.ofNat 16 a, classify old v, old, v⟩] } }))

/-- R209: the same EE_PUT again, once the first cycle has ended, starts no cycle. -/
def Obligations.RepeatedPutStartsNoCycle : Prop :=
  ∀ (a : Nat) (v : Byte) (s t u : State), s.Inv → a < s.cfg.eeSize → s.cur = .main → s.ee.busy = false →
    exec (.eePut a v) s = .next t → eeDone t = .next u →
    exec (.eePut a v) u = .next (u.finish .ok 0) ∧
      (s.peek .eemem a = some v → u.logs.eeLog = s.logs.eeLog) ∧
      (s.peek .eemem a ≠ some v → u.logs.eeLog.length = s.logs.eeLog.length + 1)

/-- R212: the transitions of EE_WRITE_BLOCK while no cycle is in flight: data byte j is read once from BUF, put at a + j
and summed; after the last one the trailer is put at a + len and the operation ends with it. A BUF byte that nothing
has written is the free value of this draw (assumption log 8), read once. -/
def Obligations.WriteBlockTransitions : Prop :=
  ∀ (a len : Nat) (s : State), s.cur = .main → a + len < s.cfg.eeSize → len < 256 → s.ee.busy = false →
    (s.blockLoop.1 < len →
      let j := s.blockLoop.1
      let d := (Mem.get? s.buf j).getD (Config.freeByte s.draws)
      ∃ old t, s.peek .eemem (a + j) = some old ∧ exec (.eeWriteBlock a len) s = .next t ∧
        GoesOn (.eeWriteBlock a len) s t (.block (j + 1) (cksStep s.cfg.cksum s.blockLoop.2 d)) ∧
        t.draws = (if (Mem.get? s.buf j).isSome then s.draws else s.draws + 1) ∧
        (classify old d = .none → t.ee = s.ee ∧ t.logs = s.logs) ∧
        (classify old d ≠ .none →
          t.ee = { s.ee with busy := true, pend := ⟨BitVec.ofNat 16 (a + j), classify old d, d⟩ } ∧
          t.logs = { s.logs with
            eeLog := s.logs.eeLog ++ [⟨BitVec.ofNat 16 (a + j), classify old d, old, d⟩] })) ∧
    (len ≤ s.blockLoop.1 →
      let c := s.blockLoop.2
      ∃ old t, s.peek .eemem (a + len) = some old ∧ exec (.eeWriteBlock a len) s = .next t ∧
        Ended s t .ok (c.setWidth 16) ∧
        (classify old c = .none → t.ee = s.ee ∧ t.logs = s.logs) ∧
        (classify old c ≠ .none →
          t.ee = { s.ee with busy := true, pend := ⟨BitVec.ofNat 16 (a + len), classify old c, c⟩ } ∧
          t.logs = { s.logs with
            eeLog := s.logs.eeLog ++ [⟨BitVec.ofNat 16 (a + len), classify old c, old, c⟩] }))

/-- R213: the transitions of EE_READ_BLOCK while no cycle is in flight: byte a + j goes into BUF[j] and into the sum;
after the last one the sum is compared with the trailer, and the operation ends with OK or CKSUM_FAIL and both in its
data. -/
def Obligations.ReadBlockTransitions : Prop :=
  ∀ (a len : Nat) (s : State), s.cur = .main → a + len < s.cfg.eeSize → len < 256 → s.ee.busy = false →
    (s.blockLoop.1 < len →
      let j := s.blockLoop.1
      ∃ d t, s.peek .eemem (a + j) = some d ∧ exec (.eeReadBlock a len) s = .next t ∧
        GoesOn (.eeReadBlock a len) s t (.block (j + 1) (cksStep s.cfg.cksum s.blockLoop.2 d)) ∧
        Mem.get? t.buf j = some d ∧ (∀ b, b ≠ j → Mem.get? t.buf b = Mem.get? s.buf b) ∧ t.ee = s.ee ∧
        t.logs = s.logs) ∧
    (len ≤ s.blockLoop.1 →
      ∃ e : Byte, s.peek .eemem (a + len) = some e ∧
        exec (.eeReadBlock a len) s =
          .next (s.finish (if s.blockLoop.2 = e then .ok else .cksumFail)
            ((e.setWidth 16 <<< 8) ||| s.blockLoop.2.setWidth 16)))

/-- R211, R215: the worked checksum and its corrupted read, under both variants; under ROTATE one changed data byte
always changes the checksum, and under LOGICAL_OR it need not. -/
def Obligations.RotateDetectsOneChangedByte : Prop :=
  (cks .rotate [0x01, 0x02, 0x03] = 0x0B ∧ cks .logicalOr [0x01, 0x02, 0x03] = 0x04 ∧
    cks .rotate [0x01, 0xFF, 0x03] = 0x05 ∧ cks .logicalOr [0x01, 0xFF, 0x03] = 0x03) ∧
  (∀ (l r : List Byte) (d e : Byte), d ≠ e → cks .rotate (l ++ d :: r) ≠ cks .rotate (l ++ e :: r)) ∧
    cks .logicalOr [0x01, 0x00] = cks .logicalOr [0x02, 0x00]

/-- R214, the checksum round-trip law, under every interleaving: MAIN writes a record from BUF and reads it back next;
once both have finished, the read returned OK and BUF holds the bytes that were written, under both checksum variants and
every length. A BUF byte that nothing had written is the free value of its one read (R212 d, assumption log 8). -/
def Obligations.RecordRoundTrip : Prop :=
  ∀ (a len k : Nat) (s t : State) (ws : List Word),
    s.Inv → a + len < s.cfg.eeSize → len < 256 → s.pend.main = none →
    s.prog.main = encode (.eeWriteBlock a len) :: encode (.eeReadBlock a len) :: ws →
    Sys2Proof.core.run k s = .next t → t.pend.main = none → t.ip.main = s.ip.main + 2 →
    t.res.main.status = Status.ok.code ∧ t.bufBytes len = (s.bufReads len).map some ∧
      t.res.main.data.extractLsb' 0 8 = cks s.cfg.cksum (s.bufReads len) ∧
      t.res.main.data.extractLsb' 8 8 = cks s.cfg.cksum (s.bufReads len)

/-! ## CTRL and BUF -/

/-- R230, R235, R236: NOP, BUF_WRITE and BUF_READ. A BUF byte that nothing has written since power-on reads as the free
value of this draw, and the next such read is another draw (R53, assumption log 8). -/
def Obligations.NopAndBufferTransitions : Prop :=
  (decode 0x01000000 = some .nop ∧ decode 0x00000000 = none ∧ (∀ p, allowed .nop p = true) ∧
    ∀ s : State, exec .nop s = .next (s.finish .ok 0)) ∧
  (∀ (j : BitVec 8) (d : Byte),
    decode (0x51000000 ||| (j.setWidth 32 <<< 8) ||| d.setWidth 32) = some (.bufWrite j.toNat d) ∧
    decode (0x52000000 ||| (j.setWidth 32 <<< 8)) = some (.bufRead j.toNat)) ∧
  ∀ (j : Nat) (d : Byte), j < 256 →
    (∀ p, (allowed (.bufWrite j d) p = true ↔ p = .main) ∧ (allowed (.bufRead j) p = true ↔ p = .main)) ∧
    ∀ s : State, s.cur = .main →
      (∃ t, exec (.bufWrite j d) s = .next t ∧ Ended s t .ok 0 ∧ t.bufWritten j = true ∧
        (∀ b, Mem.get? t.buf b = if b = j then some d else Mem.get? s.buf b) ∧ t.ee = s.ee ∧ t.i2c = s.i2c ∧
        t.fifo = s.fifo ∧ t.flag = s.flag ∧ t.logs = s.logs) ∧
      (∀ v, Mem.get? s.buf j = some v → exec (.bufRead j) s = .next (s.finish .ok (v.setWidth 16))) ∧
      (s.bufWritten j = false → exec (.bufRead j) s =
        .next (State.finish .ok ((Config.freeByte s.draws).setWidth 16) { s with draws := s.draws + 1 }))

/-- R231, R55, R56: CSR_READ on every port, ERR_ARG for a reserved index and the CSR's value otherwise; and the CSR map,
field by field, with the bits it does not list reading 0. -/
def Obligations.CsrReadShowsTheMap : Prop :=
  (∀ j : BitVec 8, decode (0x02000000 ||| j.setWidth 32) = some (.csrRead j.toNat)) ∧
  (∀ j : Nat, (∀ p, allowed (.csrRead j) p = true) ∧
    ∀ s : State, (0x10 < j → exec (.csrRead j) s = .next (s.finish .errArg 0)) ∧
      (j ≤ 0x10 → exec (.csrRead j) s = .next (s.finish .ok (csr s j)))) ∧
  ∀ s : State, s.Inv →
    (csr s 0x00).toNat = s.fifo.rx.head.toNat ∧ (csr s 0x01).toNat = s.fifo.rx.tail.toNat ∧
    (csr s 0x02).toNat = s.fifo.rx.count s.cfg.cRx ∧ (csr s 0x03).toNat = s.fifo.tx.head.toNat ∧
    (csr s 0x04).toNat = s.fifo.tx.tail.toNat ∧ (csr s 0x05).toNat = s.fifo.tx.count s.cfg.cTx ∧
    ((csr s 0x06).extractLsb' 0 2 = s.fifo.fc.code ∧ (csr s 0x06).getLsbD 2 = s.cfg.fcEnable ∧
      (csr s 0x06).extractLsb' 3 13 = 0) ∧
    ((csr s 0x07).getLsbD 0 = s.fifo.rxOvf ∧ (csr s 0x07).getLsbD 1 = s.ee.busy ∧
      (csr s 0x07).getLsbD 2 = decide (s.flag.alarm ≠ 0) ∧
      (csr s 0x07).getLsbD 3 = decide (s.flag.exec ≠ 0 ∨ s.flag.pending = true) ∧
      (csr s 0x07).getLsbD 4 = decide (s.fifo.rx.head ≠ s.fifo.rx.tail) ∧
      (csr s 0x07).getLsbD 5 =
        decide (s.fifo.tx.head ≠ s.fifo.tx.tail ∨ s.fifo.fc = .sendXoff ∨ s.fifo.fc = .sendXon) ∧
      (csr s 0x07).extractLsb' 6 10 = 0) ∧
    ((csr s 0x08).extractLsb' 0 7 = s.flag.exec ∧ (csr s 0x08).extractLsb' 7 9 = 0) ∧
    ((csr s 0x09).extractLsb' 0 6 = s.flag.alarm ∧ (csr s 0x09).extractLsb' 6 2 = 0 ∧
      (csr s 0x09).getLsbD 8 = s.flag.pending ∧ (csr s 0x09).extractLsb' 9 7 = 0) ∧
    ((csr s 0x0A).extractLsb' 0 3 = s.i2c.phase.code ∧ (csr s 0x0A).getLsbD 3 = decide (s.i2c.dir = .read) ∧
      (csr s 0x0A).getLsbD 4 = s.i2c.nak ∧ (csr s 0x0A).extractLsb' 5 7 = s.i2c.addr ∧
      (csr s 0x0A).extractLsb' 12 4 = 0) ∧
    ((csr s 0x0B).extractLsb' 0 4 = s.i2c.lastBs.code ∧ (csr s 0x0B).extractLsb' 4 12 = 0) ∧
    (csr s 0x0C).toNat = s.cfg.cRx ∧ (csr s 0x0D).toNat = s.cfg.cTx ∧ (csr s 0x0E).toNat = s.cfg.eeSize - 1 ∧
    csr s 0x0F = s.ee.pend.addr ∧
    ((csr s 0x10).extractLsb' 0 2 = s.ee.pend.mode.code ∧ (csr s 0x10).extractLsb' 2 6 = 0 ∧
      (csr s 0x10).extractLsb' 8 8 = s.ee.pend.value)

/-- R252: the level outputs are the bits of CSR STATUS and have the conditions of the table; EVENT_O is high exactly
when the dispatcher has a cause to return. -/
def Obligations.LevelOutputsAreStatusBits : Prop :=
  ∀ s : State,
    s.outputs.rxOvf = (csr s 0x07).getLsbD 0 ∧ s.outputs.eeBusy = (csr s 0x07).getLsbD 1 ∧
    s.outputs.alarm = (csr s 0x07).getLsbD 2 ∧ s.outputs.event = (csr s 0x07).getLsbD 3 ∧
    s.outputs.rxne = (csr s 0x07).getLsbD 4 ∧ s.outputs.txp = (csr s 0x07).getLsbD 5 ∧
    (s.outputs.rxOvf = true ↔ s.fifo.rxOvf = true) ∧ (s.outputs.eeBusy = true ↔ s.ee.busy = true) ∧
    (s.outputs.alarm = true ↔ s.flag.alarm ≠ 0) ∧
    (s.outputs.event = true ↔ s.flag.exec ≠ 0 ∨ s.flag.pending = true) ∧
    (s.outputs.event = true ↔ s.flag.prio ≠ .none) ∧ (s.outputs.rxne = true ↔ s.isEmpty .rx = false) ∧
    (s.outputs.txp = true ↔ s.isEmpty .tx = false ∨ s.fifo.fc = .sendXoff ∨ s.fifo.fc = .sendXon)

/-- R233, R271: CTRL_RESET empties both queues, keeps their slots, clears RX_OVF, EXEC, ALARM and ALARM_PENDING, sets
FC_STATE to XonSent, and leaves every other part of the state but its own result. -/
def Obligations.ControllerReset : Prop :=
  decode 0x03000000 = some .ctrlReset ∧ (∀ p, allowed .ctrlReset p = true ↔ p = .main) ∧
  ∀ s : State, s.cur = .main → exec .ctrlReset s =
    .next (State.finish .ok 0
      { s with fifo := { rx := ⟨s.fifo.rx.mem, 0, 0⟩, tx := ⟨s.fifo.tx.mem, 0, 0⟩, rxOvf := false, fc := .xonSent },
               flag := { exec := 0, alarm := 0, pending := false } })
end

