-- ==== Sys2Proof/Laws/State.lean ====
section
/-! SUPPORT. One lemma per field per update of the state, so that no later proof unfolds a record update, and the
values of a port under an update of another. -/

namespace Sys2Proof.Machine

section
variable (v : PerPort Result) (s : State)
@[simp] theorem State.setRes_cfg : (s.setRes v).cfg = s.cfg := rfl
@[simp] theorem State.setRes_res : (s.setRes v).res = v := rfl
@[simp] theorem State.setRes_pend : (s.setRes v).pend = s.pend := rfl
@[simp] theorem State.setRes_fifo : (s.setRes v).fifo = s.fifo := rfl
@[simp] theorem State.setRes_flag : (s.setRes v).flag = s.flag := rfl
@[simp] theorem State.setRes_i2c : (s.setRes v).i2c = s.i2c := rfl
@[simp] theorem State.setRes_ee : (s.setRes v).ee = s.ee := rfl
@[simp] theorem State.setRes_buf : (s.setRes v).buf = s.buf := rfl
@[simp] theorem State.setRes_logs : (s.setRes v).logs = s.logs := rfl
@[simp] theorem State.setRes_prog : (s.setRes v).prog = s.prog := rfl
@[simp] theorem State.setRes_ip : (s.setRes v).ip = s.ip := rfl
@[simp] theorem State.setRes_busIn : (s.setRes v).busIn = s.busIn := rfl
@[simp] theorem State.setRes_sched : (s.setRes v).sched = s.sched := rfl
@[simp] theorem State.setRes_cur : (s.setRes v).cur = s.cur := rfl
@[simp] theorem State.setRes_draws : (s.setRes v).draws = s.draws := rfl
end

section
variable (v : PerPort (Option Pending)) (s : State)
@[simp] theorem State.setPend_cfg : (s.setPend v).cfg = s.cfg := rfl
@[simp] theorem State.setPend_res : (s.setPend v).res = s.res := rfl
@[simp] theorem State.setPend_pend : (s.setPend v).pend = v := rfl
@[simp] theorem State.setPend_fifo : (s.setPend v).fifo = s.fifo := rfl
@[simp] theorem State.setPend_flag : (s.setPend v).flag = s.flag := rfl
@[simp] theorem State.setPend_i2c : (s.setPend v).i2c = s.i2c := rfl
@[simp] theorem State.setPend_ee : (s.setPend v).ee = s.ee := rfl
@[simp] theorem State.setPend_buf : (s.setPend v).buf = s.buf := rfl
@[simp] theorem State.setPend_logs : (s.setPend v).logs = s.logs := rfl
@[simp] theorem State.setPend_prog : (s.setPend v).prog = s.prog := rfl
@[simp] theorem State.setPend_ip : (s.setPend v).ip = s.ip := rfl
@[simp] theorem State.setPend_busIn : (s.setPend v).busIn = s.busIn := rfl
@[simp] theorem State.setPend_sched : (s.setPend v).sched = s.sched := rfl
@[simp] theorem State.setPend_cur : (s.setPend v).cur = s.cur := rfl
@[simp] theorem State.setPend_draws : (s.setPend v).draws = s.draws := rfl
end

section
variable (v : FifoUnit) (s : State)
@[simp] theorem State.setFifo_cfg : (s.setFifo v).cfg = s.cfg := rfl
@[simp] theorem State.setFifo_res : (s.setFifo v).res = s.res := rfl
@[simp] theorem State.setFifo_pend : (s.setFifo v).pend = s.pend := rfl
@[simp] theorem State.setFifo_fifo : (s.setFifo v).fifo = v := rfl
@[simp] theorem State.setFifo_flag : (s.setFifo v).flag = s.flag := rfl
@[simp] theorem State.setFifo_i2c : (s.setFifo v).i2c = s.i2c := rfl
@[simp] theorem State.setFifo_ee : (s.setFifo v).ee = s.ee := rfl
@[simp] theorem State.setFifo_buf : (s.setFifo v).buf = s.buf := rfl
@[simp] theorem State.setFifo_logs : (s.setFifo v).logs = s.logs := rfl
@[simp] theorem State.setFifo_prog : (s.setFifo v).prog = s.prog := rfl
@[simp] theorem State.setFifo_ip : (s.setFifo v).ip = s.ip := rfl
@[simp] theorem State.setFifo_busIn : (s.setFifo v).busIn = s.busIn := rfl
@[simp] theorem State.setFifo_sched : (s.setFifo v).sched = s.sched := rfl
@[simp] theorem State.setFifo_cur : (s.setFifo v).cur = s.cur := rfl
@[simp] theorem State.setFifo_draws : (s.setFifo v).draws = s.draws := rfl
end

section
variable (v : FlagUnit) (s : State)
@[simp] theorem State.setFlag_cfg : (s.setFlag v).cfg = s.cfg := rfl
@[simp] theorem State.setFlag_res : (s.setFlag v).res = s.res := rfl
@[simp] theorem State.setFlag_pend : (s.setFlag v).pend = s.pend := rfl
@[simp] theorem State.setFlag_fifo : (s.setFlag v).fifo = s.fifo := rfl
@[simp] theorem State.setFlag_flag : (s.setFlag v).flag = v := rfl
@[simp] theorem State.setFlag_i2c : (s.setFlag v).i2c = s.i2c := rfl
@[simp] theorem State.setFlag_ee : (s.setFlag v).ee = s.ee := rfl
@[simp] theorem State.setFlag_buf : (s.setFlag v).buf = s.buf := rfl
@[simp] theorem State.setFlag_logs : (s.setFlag v).logs = s.logs := rfl
@[simp] theorem State.setFlag_prog : (s.setFlag v).prog = s.prog := rfl
@[simp] theorem State.setFlag_ip : (s.setFlag v).ip = s.ip := rfl
@[simp] theorem State.setFlag_busIn : (s.setFlag v).busIn = s.busIn := rfl
@[simp] theorem State.setFlag_sched : (s.setFlag v).sched = s.sched := rfl
@[simp] theorem State.setFlag_cur : (s.setFlag v).cur = s.cur := rfl
@[simp] theorem State.setFlag_draws : (s.setFlag v).draws = s.draws := rfl
end

section
variable (v : I2cUnit) (s : State)
@[simp] theorem State.setI2c_cfg : (s.setI2c v).cfg = s.cfg := rfl
@[simp] theorem State.setI2c_res : (s.setI2c v).res = s.res := rfl
@[simp] theorem State.setI2c_pend : (s.setI2c v).pend = s.pend := rfl
@[simp] theorem State.setI2c_fifo : (s.setI2c v).fifo = s.fifo := rfl
@[simp] theorem State.setI2c_flag : (s.setI2c v).flag = s.flag := rfl
@[simp] theorem State.setI2c_i2c : (s.setI2c v).i2c = v := rfl
@[simp] theorem State.setI2c_ee : (s.setI2c v).ee = s.ee := rfl
@[simp] theorem State.setI2c_buf : (s.setI2c v).buf = s.buf := rfl
@[simp] theorem State.setI2c_logs : (s.setI2c v).logs = s.logs := rfl
@[simp] theorem State.setI2c_prog : (s.setI2c v).prog = s.prog := rfl
@[simp] theorem State.setI2c_ip : (s.setI2c v).ip = s.ip := rfl
@[simp] theorem State.setI2c_busIn : (s.setI2c v).busIn = s.busIn := rfl
@[simp] theorem State.setI2c_sched : (s.setI2c v).sched = s.sched := rfl
@[simp] theorem State.setI2c_cur : (s.setI2c v).cur = s.cur := rfl
@[simp] theorem State.setI2c_draws : (s.setI2c v).draws = s.draws := rfl
end

section
variable (v : EeUnit) (s : State)
@[simp] theorem State.setEe_cfg : (s.setEe v).cfg = s.cfg := rfl
@[simp] theorem State.setEe_res : (s.setEe v).res = s.res := rfl
@[simp] theorem State.setEe_pend : (s.setEe v).pend = s.pend := rfl
@[simp] theorem State.setEe_fifo : (s.setEe v).fifo = s.fifo := rfl
@[simp] theorem State.setEe_flag : (s.setEe v).flag = s.flag := rfl
@[simp] theorem State.setEe_i2c : (s.setEe v).i2c = s.i2c := rfl
@[simp] theorem State.setEe_ee : (s.setEe v).ee = v := rfl
@[simp] theorem State.setEe_buf : (s.setEe v).buf = s.buf := rfl
@[simp] theorem State.setEe_logs : (s.setEe v).logs = s.logs := rfl
@[simp] theorem State.setEe_prog : (s.setEe v).prog = s.prog := rfl
@[simp] theorem State.setEe_ip : (s.setEe v).ip = s.ip := rfl
@[simp] theorem State.setEe_busIn : (s.setEe v).busIn = s.busIn := rfl
@[simp] theorem State.setEe_sched : (s.setEe v).sched = s.sched := rfl
@[simp] theorem State.setEe_cur : (s.setEe v).cur = s.cur := rfl
@[simp] theorem State.setEe_draws : (s.setEe v).draws = s.draws := rfl
end

section
variable (v : Memory) (s : State)
@[simp] theorem State.setBuf_cfg : (s.setBuf v).cfg = s.cfg := rfl
@[simp] theorem State.setBuf_res : (s.setBuf v).res = s.res := rfl
@[simp] theorem State.setBuf_pend : (s.setBuf v).pend = s.pend := rfl
@[simp] theorem State.setBuf_fifo : (s.setBuf v).fifo = s.fifo := rfl
@[simp] theorem State.setBuf_flag : (s.setBuf v).flag = s.flag := rfl
@[simp] theorem State.setBuf_i2c : (s.setBuf v).i2c = s.i2c := rfl
@[simp] theorem State.setBuf_ee : (s.setBuf v).ee = s.ee := rfl
@[simp] theorem State.setBuf_buf : (s.setBuf v).buf = v := rfl
@[simp] theorem State.setBuf_logs : (s.setBuf v).logs = s.logs := rfl
@[simp] theorem State.setBuf_prog : (s.setBuf v).prog = s.prog := rfl
@[simp] theorem State.setBuf_ip : (s.setBuf v).ip = s.ip := rfl
@[simp] theorem State.setBuf_busIn : (s.setBuf v).busIn = s.busIn := rfl
@[simp] theorem State.setBuf_sched : (s.setBuf v).sched = s.sched := rfl
@[simp] theorem State.setBuf_cur : (s.setBuf v).cur = s.cur := rfl
@[simp] theorem State.setBuf_draws : (s.setBuf v).draws = s.draws := rfl
end

section
variable (v : Logs) (s : State)
@[simp] theorem State.setLogs_cfg : (s.setLogs v).cfg = s.cfg := rfl
@[simp] theorem State.setLogs_res : (s.setLogs v).res = s.res := rfl
@[simp] theorem State.setLogs_pend : (s.setLogs v).pend = s.pend := rfl
@[simp] theorem State.setLogs_fifo : (s.setLogs v).fifo = s.fifo := rfl
@[simp] theorem State.setLogs_flag : (s.setLogs v).flag = s.flag := rfl
@[simp] theorem State.setLogs_i2c : (s.setLogs v).i2c = s.i2c := rfl
@[simp] theorem State.setLogs_ee : (s.setLogs v).ee = s.ee := rfl
@[simp] theorem State.setLogs_buf : (s.setLogs v).buf = s.buf := rfl
@[simp] theorem State.setLogs_logs : (s.setLogs v).logs = v := rfl
@[simp] theorem State.setLogs_prog : (s.setLogs v).prog = s.prog := rfl
@[simp] theorem State.setLogs_ip : (s.setLogs v).ip = s.ip := rfl
@[simp] theorem State.setLogs_busIn : (s.setLogs v).busIn = s.busIn := rfl
@[simp] theorem State.setLogs_sched : (s.setLogs v).sched = s.sched := rfl
@[simp] theorem State.setLogs_cur : (s.setLogs v).cur = s.cur := rfl
@[simp] theorem State.setLogs_draws : (s.setLogs v).draws = s.draws := rfl
end

section
variable (v : PerPort (List Word)) (s : State)
@[simp] theorem State.setProg_cfg : (s.setProg v).cfg = s.cfg := rfl
@[simp] theorem State.setProg_res : (s.setProg v).res = s.res := rfl
@[simp] theorem State.setProg_pend : (s.setProg v).pend = s.pend := rfl
@[simp] theorem State.setProg_fifo : (s.setProg v).fifo = s.fifo := rfl
@[simp] theorem State.setProg_flag : (s.setProg v).flag = s.flag := rfl
@[simp] theorem State.setProg_i2c : (s.setProg v).i2c = s.i2c := rfl
@[simp] theorem State.setProg_ee : (s.setProg v).ee = s.ee := rfl
@[simp] theorem State.setProg_buf : (s.setProg v).buf = s.buf := rfl
@[simp] theorem State.setProg_logs : (s.setProg v).logs = s.logs := rfl
@[simp] theorem State.setProg_prog : (s.setProg v).prog = v := rfl
@[simp] theorem State.setProg_ip : (s.setProg v).ip = s.ip := rfl
@[simp] theorem State.setProg_busIn : (s.setProg v).busIn = s.busIn := rfl
@[simp] theorem State.setProg_sched : (s.setProg v).sched = s.sched := rfl
@[simp] theorem State.setProg_cur : (s.setProg v).cur = s.cur := rfl
@[simp] theorem State.setProg_draws : (s.setProg v).draws = s.draws := rfl
end

section
variable (v : PerPort Nat) (s : State)
@[simp] theorem State.setIp_cfg : (s.setIp v).cfg = s.cfg := rfl
@[simp] theorem State.setIp_res : (s.setIp v).res = s.res := rfl
@[simp] theorem State.setIp_pend : (s.setIp v).pend = s.pend := rfl
@[simp] theorem State.setIp_fifo : (s.setIp v).fifo = s.fifo := rfl
@[simp] theorem State.setIp_flag : (s.setIp v).flag = s.flag := rfl
@[simp] theorem State.setIp_i2c : (s.setIp v).i2c = s.i2c := rfl
@[simp] theorem State.setIp_ee : (s.setIp v).ee = s.ee := rfl
@[simp] theorem State.setIp_buf : (s.setIp v).buf = s.buf := rfl
@[simp] theorem State.setIp_logs : (s.setIp v).logs = s.logs := rfl
@[simp] theorem State.setIp_prog : (s.setIp v).prog = s.prog := rfl
@[simp] theorem State.setIp_ip : (s.setIp v).ip = v := rfl
@[simp] theorem State.setIp_busIn : (s.setIp v).busIn = s.busIn := rfl
@[simp] theorem State.setIp_sched : (s.setIp v).sched = s.sched := rfl
@[simp] theorem State.setIp_cur : (s.setIp v).cur = s.cur := rfl
@[simp] theorem State.setIp_draws : (s.setIp v).draws = s.draws := rfl
end

section
variable (v : List BusAnswer) (s : State)
@[simp] theorem State.setBusIn_cfg : (s.setBusIn v).cfg = s.cfg := rfl
@[simp] theorem State.setBusIn_res : (s.setBusIn v).res = s.res := rfl
@[simp] theorem State.setBusIn_pend : (s.setBusIn v).pend = s.pend := rfl
@[simp] theorem State.setBusIn_fifo : (s.setBusIn v).fifo = s.fifo := rfl
@[simp] theorem State.setBusIn_flag : (s.setBusIn v).flag = s.flag := rfl
@[simp] theorem State.setBusIn_i2c : (s.setBusIn v).i2c = s.i2c := rfl
@[simp] theorem State.setBusIn_ee : (s.setBusIn v).ee = s.ee := rfl
@[simp] theorem State.setBusIn_buf : (s.setBusIn v).buf = s.buf := rfl
@[simp] theorem State.setBusIn_logs : (s.setBusIn v).logs = s.logs := rfl
@[simp] theorem State.setBusIn_prog : (s.setBusIn v).prog = s.prog := rfl
@[simp] theorem State.setBusIn_ip : (s.setBusIn v).ip = s.ip := rfl
@[simp] theorem State.setBusIn_busIn : (s.setBusIn v).busIn = v := rfl
@[simp] theorem State.setBusIn_sched : (s.setBusIn v).sched = s.sched := rfl
@[simp] theorem State.setBusIn_cur : (s.setBusIn v).cur = s.cur := rfl
@[simp] theorem State.setBusIn_draws : (s.setBusIn v).draws = s.draws := rfl
end

section
variable (v : List Agent) (s : State)
@[simp] theorem State.setSched_cfg : (s.setSched v).cfg = s.cfg := rfl
@[simp] theorem State.setSched_res : (s.setSched v).res = s.res := rfl
@[simp] theorem State.setSched_pend : (s.setSched v).pend = s.pend := rfl
@[simp] theorem State.setSched_fifo : (s.setSched v).fifo = s.fifo := rfl
@[simp] theorem State.setSched_flag : (s.setSched v).flag = s.flag := rfl
@[simp] theorem State.setSched_i2c : (s.setSched v).i2c = s.i2c := rfl
@[simp] theorem State.setSched_ee : (s.setSched v).ee = s.ee := rfl
@[simp] theorem State.setSched_buf : (s.setSched v).buf = s.buf := rfl
@[simp] theorem State.setSched_logs : (s.setSched v).logs = s.logs := rfl
@[simp] theorem State.setSched_prog : (s.setSched v).prog = s.prog := rfl
@[simp] theorem State.setSched_ip : (s.setSched v).ip = s.ip := rfl
@[simp] theorem State.setSched_busIn : (s.setSched v).busIn = s.busIn := rfl
@[simp] theorem State.setSched_sched : (s.setSched v).sched = v := rfl
@[simp] theorem State.setSched_cur : (s.setSched v).cur = s.cur := rfl
@[simp] theorem State.setSched_draws : (s.setSched v).draws = s.draws := rfl
end

section
variable (v : Port) (s : State)
@[simp] theorem State.setCur_cfg : (s.setCur v).cfg = s.cfg := rfl
@[simp] theorem State.setCur_res : (s.setCur v).res = s.res := rfl
@[simp] theorem State.setCur_pend : (s.setCur v).pend = s.pend := rfl
@[simp] theorem State.setCur_fifo : (s.setCur v).fifo = s.fifo := rfl
@[simp] theorem State.setCur_flag : (s.setCur v).flag = s.flag := rfl
@[simp] theorem State.setCur_i2c : (s.setCur v).i2c = s.i2c := rfl
@[simp] theorem State.setCur_ee : (s.setCur v).ee = s.ee := rfl
@[simp] theorem State.setCur_buf : (s.setCur v).buf = s.buf := rfl
@[simp] theorem State.setCur_logs : (s.setCur v).logs = s.logs := rfl
@[simp] theorem State.setCur_prog : (s.setCur v).prog = s.prog := rfl
@[simp] theorem State.setCur_ip : (s.setCur v).ip = s.ip := rfl
@[simp] theorem State.setCur_busIn : (s.setCur v).busIn = s.busIn := rfl
@[simp] theorem State.setCur_sched : (s.setCur v).sched = s.sched := rfl
@[simp] theorem State.setCur_cur : (s.setCur v).cur = v := rfl
@[simp] theorem State.setCur_draws : (s.setCur v).draws = s.draws := rfl
end

section
variable (v : Nat) (s : State)
@[simp] theorem State.setDraws_cfg : (s.setDraws v).cfg = s.cfg := rfl
@[simp] theorem State.setDraws_res : (s.setDraws v).res = s.res := rfl
@[simp] theorem State.setDraws_pend : (s.setDraws v).pend = s.pend := rfl
@[simp] theorem State.setDraws_fifo : (s.setDraws v).fifo = s.fifo := rfl
@[simp] theorem State.setDraws_flag : (s.setDraws v).flag = s.flag := rfl
@[simp] theorem State.setDraws_i2c : (s.setDraws v).i2c = s.i2c := rfl
@[simp] theorem State.setDraws_ee : (s.setDraws v).ee = s.ee := rfl
@[simp] theorem State.setDraws_buf : (s.setDraws v).buf = s.buf := rfl
@[simp] theorem State.setDraws_logs : (s.setDraws v).logs = s.logs := rfl
@[simp] theorem State.setDraws_prog : (s.setDraws v).prog = s.prog := rfl
@[simp] theorem State.setDraws_ip : (s.setDraws v).ip = s.ip := rfl
@[simp] theorem State.setDraws_busIn : (s.setDraws v).busIn = s.busIn := rfl
@[simp] theorem State.setDraws_sched : (s.setDraws v).sched = s.sched := rfl
@[simp] theorem State.setDraws_cur : (s.setDraws v).cur = s.cur := rfl
@[simp] theorem State.setDraws_draws : (s.setDraws v).draws = v := rfl
end

section
variable {α : Type} (r : PerPort α) (p q : Port) (v : α)
@[simp] theorem PerPort.get_set_same : (r.set p v).get p = v := by cases p <;> rfl
theorem PerPort.get_set_other (h : q ≠ p) : (r.set p v).get q = r.get q := by
  cases p <;> cases q <;> first | rfl | exact absurd rfl h
@[simp] theorem PerPort.get_const : (PerPort.const v).get p = v := by cases p <;> rfl
@[simp] theorem PerPort.get_main : r.get .main = r.main := rfl
end


section
variable (st : Status) (d : Half) (s : State)
@[simp] theorem State.finish_cfg : (s.finish st d).cfg = s.cfg := rfl
@[simp] theorem State.finish_res : (s.finish st d).res = s.res.set s.cur ⟨st.code, d⟩ := rfl
@[simp] theorem State.finish_pend : (s.finish st d).pend = s.pend.set s.cur none := rfl
@[simp] theorem State.finish_fifo : (s.finish st d).fifo = s.fifo := rfl
@[simp] theorem State.finish_flag : (s.finish st d).flag = s.flag := rfl
@[simp] theorem State.finish_i2c : (s.finish st d).i2c = s.i2c := rfl
@[simp] theorem State.finish_ee : (s.finish st d).ee = s.ee := rfl
@[simp] theorem State.finish_buf : (s.finish st d).buf = s.buf := rfl
@[simp] theorem State.finish_logs : (s.finish st d).logs = s.logs := rfl
@[simp] theorem State.finish_prog : (s.finish st d).prog = s.prog := rfl
@[simp] theorem State.finish_ip : (s.finish st d).ip = s.ip.set s.cur (s.ip.get s.cur + 1) := rfl
@[simp] theorem State.finish_busIn : (s.finish st d).busIn = s.busIn := rfl
@[simp] theorem State.finish_sched : (s.finish st d).sched = s.sched := rfl
@[simp] theorem State.finish_cur : (s.finish st d).cur = s.cur := rfl
@[simp] theorem State.finish_draws : (s.finish st d).draws = s.draws := rfl
end

section
variable (i : Instr) (st : Stage) (s : State)
@[simp] theorem State.await_cfg : (s.await i st).cfg = s.cfg := rfl
@[simp] theorem State.await_res : (s.await i st).res = s.res := rfl
@[simp] theorem State.await_pend : (s.await i st).pend = s.pend.set s.cur (some ⟨encode i, st⟩) := rfl
@[simp] theorem State.await_fifo : (s.await i st).fifo = s.fifo := rfl
@[simp] theorem State.await_flag : (s.await i st).flag = s.flag := rfl
@[simp] theorem State.await_i2c : (s.await i st).i2c = s.i2c := rfl
@[simp] theorem State.await_ee : (s.await i st).ee = s.ee := rfl
@[simp] theorem State.await_buf : (s.await i st).buf = s.buf := rfl
@[simp] theorem State.await_logs : (s.await i st).logs = s.logs := rfl
@[simp] theorem State.await_prog : (s.await i st).prog = s.prog := rfl
@[simp] theorem State.await_ip : (s.await i st).ip = s.ip := rfl
@[simp] theorem State.await_busIn : (s.await i st).busIn = s.busIn := rfl
@[simp] theorem State.await_sched : (s.await i st).sched = s.sched := rfl
@[simp] theorem State.await_cur : (s.await i st).cur = s.cur := rfl
@[simp] theorem State.await_draws : (s.await i st).draws = s.draws := rfl
end

section
variable (i : Instr) (s : State)
@[simp] theorem State.hold_cfg : (s.hold i).cfg = s.cfg := rfl
@[simp] theorem State.hold_res : (s.hold i).res = s.res := rfl
@[simp] theorem State.hold_pend : (s.hold i).pend = s.pend.set s.cur (some ⟨encode i, s.stage⟩) := rfl
@[simp] theorem State.hold_fifo : (s.hold i).fifo = s.fifo := rfl
@[simp] theorem State.hold_flag : (s.hold i).flag = s.flag := rfl
@[simp] theorem State.hold_i2c : (s.hold i).i2c = s.i2c := rfl
@[simp] theorem State.hold_ee : (s.hold i).ee = s.ee := rfl
@[simp] theorem State.hold_buf : (s.hold i).buf = s.buf := rfl
@[simp] theorem State.hold_logs : (s.hold i).logs = s.logs := rfl
@[simp] theorem State.hold_prog : (s.hold i).prog = s.prog := rfl
@[simp] theorem State.hold_ip : (s.hold i).ip = s.ip := rfl
@[simp] theorem State.hold_busIn : (s.hold i).busIn = s.busIn := rfl
@[simp] theorem State.hold_sched : (s.hold i).sched = s.sched := rfl
@[simp] theorem State.hold_cur : (s.hold i).cur = s.cur := rfl
@[simp] theorem State.hold_draws : (s.hold i).draws = s.draws := rfl
end

section
variable (b : Byte) (s : State)
@[simp] theorem State.emitTx_cfg : (s.emitTx b).cfg = s.cfg := rfl
@[simp] theorem State.emitTx_res : (s.emitTx b).res = s.res := rfl
@[simp] theorem State.emitTx_pend : (s.emitTx b).pend = s.pend := rfl
@[simp] theorem State.emitTx_fifo : (s.emitTx b).fifo = s.fifo := rfl
@[simp] theorem State.emitTx_flag : (s.emitTx b).flag = s.flag := rfl
@[simp] theorem State.emitTx_i2c : (s.emitTx b).i2c = s.i2c := rfl
@[simp] theorem State.emitTx_ee : (s.emitTx b).ee = s.ee := rfl
@[simp] theorem State.emitTx_buf : (s.emitTx b).buf = s.buf := rfl
@[simp] theorem State.emitTx_logs : (s.emitTx b).logs = { s.logs with txLine := s.logs.txLine ++ [b] } := rfl
@[simp] theorem State.emitTx_prog : (s.emitTx b).prog = s.prog := rfl
@[simp] theorem State.emitTx_ip : (s.emitTx b).ip = s.ip := rfl
@[simp] theorem State.emitTx_busIn : (s.emitTx b).busIn = s.busIn := rfl
@[simp] theorem State.emitTx_sched : (s.emitTx b).sched = s.sched := rfl
@[simp] theorem State.emitTx_cur : (s.emitTx b).cur = s.cur := rfl
@[simp] theorem State.emitTx_draws : (s.emitTx b).draws = s.draws := rfl
end

section
variable (e : BusEvent) (s : State)
@[simp] theorem State.emitBus_cfg : (s.emitBus e).cfg = s.cfg := rfl
@[simp] theorem State.emitBus_res : (s.emitBus e).res = s.res := rfl
@[simp] theorem State.emitBus_pend : (s.emitBus e).pend = s.pend := rfl
@[simp] theorem State.emitBus_fifo : (s.emitBus e).fifo = s.fifo := rfl
@[simp] theorem State.emitBus_flag : (s.emitBus e).flag = s.flag := rfl
@[simp] theorem State.emitBus_i2c : (s.emitBus e).i2c = s.i2c := rfl
@[simp] theorem State.emitBus_ee : (s.emitBus e).ee = s.ee := rfl
@[simp] theorem State.emitBus_buf : (s.emitBus e).buf = s.buf := rfl
@[simp] theorem State.emitBus_logs : (s.emitBus e).logs = { s.logs with busLog := s.logs.busLog ++ [e] } := rfl
@[simp] theorem State.emitBus_prog : (s.emitBus e).prog = s.prog := rfl
@[simp] theorem State.emitBus_ip : (s.emitBus e).ip = s.ip := rfl
@[simp] theorem State.emitBus_busIn : (s.emitBus e).busIn = s.busIn := rfl
@[simp] theorem State.emitBus_sched : (s.emitBus e).sched = s.sched := rfl
@[simp] theorem State.emitBus_cur : (s.emitBus e).cur = s.cur := rfl
@[simp] theorem State.emitBus_draws : (s.emitBus e).draws = s.draws := rfl
end

section
variable (c : FcState) (s : State)
@[simp] theorem State.setFc_cfg : (s.setFc c).cfg = s.cfg := rfl
@[simp] theorem State.setFc_res : (s.setFc c).res = s.res := rfl
@[simp] theorem State.setFc_pend : (s.setFc c).pend = s.pend := rfl
@[simp] theorem State.setFc_fifo : (s.setFc c).fifo = { s.fifo with fc := c } := rfl
@[simp] theorem State.setFc_flag : (s.setFc c).flag = s.flag := rfl
@[simp] theorem State.setFc_i2c : (s.setFc c).i2c = s.i2c := rfl
@[simp] theorem State.setFc_ee : (s.setFc c).ee = s.ee := rfl
@[simp] theorem State.setFc_buf : (s.setFc c).buf = s.buf := rfl
@[simp] theorem State.setFc_logs : (s.setFc c).logs = s.logs := rfl
@[simp] theorem State.setFc_prog : (s.setFc c).prog = s.prog := rfl
@[simp] theorem State.setFc_ip : (s.setFc c).ip = s.ip := rfl
@[simp] theorem State.setFc_busIn : (s.setFc c).busIn = s.busIn := rfl
@[simp] theorem State.setFc_sched : (s.setFc c).sched = s.sched := rfl
@[simp] theorem State.setFc_cur : (s.setFc c).cur = s.cur := rfl
@[simp] theorem State.setFc_draws : (s.setFc c).draws = s.draws := rfl
end

section
variable (s : State)
@[simp] theorem State.rxOverflow_cfg : (s.rxOverflow).cfg = s.cfg := rfl
@[simp] theorem State.rxOverflow_res : (s.rxOverflow).res = s.res := rfl
@[simp] theorem State.rxOverflow_pend : (s.rxOverflow).pend = s.pend := rfl
@[simp] theorem State.rxOverflow_fifo : (s.rxOverflow).fifo = { s.fifo with rxOvf := true } := rfl
@[simp] theorem State.rxOverflow_flag : (s.rxOverflow).flag = s.flag := rfl
@[simp] theorem State.rxOverflow_i2c : (s.rxOverflow).i2c = s.i2c := rfl
@[simp] theorem State.rxOverflow_ee : (s.rxOverflow).ee = s.ee := rfl
@[simp] theorem State.rxOverflow_buf : (s.rxOverflow).buf = s.buf := rfl
@[simp] theorem State.rxOverflow_logs : (s.rxOverflow).logs = s.logs := rfl
@[simp] theorem State.rxOverflow_prog : (s.rxOverflow).prog = s.prog := rfl
@[simp] theorem State.rxOverflow_ip : (s.rxOverflow).ip = s.ip := rfl
@[simp] theorem State.rxOverflow_busIn : (s.rxOverflow).busIn = s.busIn := rfl
@[simp] theorem State.rxOverflow_sched : (s.rxOverflow).sched = s.sched := rfl
@[simp] theorem State.rxOverflow_cur : (s.rxOverflow).cur = s.cur := rfl
@[simp] theorem State.rxOverflow_draws : (s.rxOverflow).draws = s.draws := rfl
end

section
variable (a : Nat) (m : Mode) (old v : Byte) (s : State)
@[simp] theorem State.startCycle_cfg : (s.startCycle a m old v).cfg = s.cfg := rfl
@[simp] theorem State.startCycle_res : (s.startCycle a m old v).res = s.res := rfl
@[simp] theorem State.startCycle_pend : (s.startCycle a m old v).pend = s.pend := rfl
@[simp] theorem State.startCycle_fifo : (s.startCycle a m old v).fifo = s.fifo := rfl
@[simp] theorem State.startCycle_flag : (s.startCycle a m old v).flag = s.flag := rfl
@[simp] theorem State.startCycle_i2c : (s.startCycle a m old v).i2c = s.i2c := rfl
@[simp] theorem State.startCycle_ee : (s.startCycle a m old v).ee = { s.ee with busy := true, pend := ⟨BitVec.ofNat 16 a, m, v⟩ } := rfl
@[simp] theorem State.startCycle_buf : (s.startCycle a m old v).buf = s.buf := rfl
@[simp] theorem State.startCycle_logs : (s.startCycle a m old v).logs = { s.logs with eeLog := s.logs.eeLog ++ [⟨BitVec.ofNat 16 a, m, old, v⟩] } := rfl
@[simp] theorem State.startCycle_prog : (s.startCycle a m old v).prog = s.prog := rfl
@[simp] theorem State.startCycle_ip : (s.startCycle a m old v).ip = s.ip := rfl
@[simp] theorem State.startCycle_busIn : (s.startCycle a m old v).busIn = s.busIn := rfl
@[simp] theorem State.startCycle_sched : (s.startCycle a m old v).sched = s.sched := rfl
@[simp] theorem State.startCycle_cur : (s.startCycle a m old v).cur = s.cur := rfl
@[simp] theorem State.startCycle_draws : (s.startCycle a m old v).draws = s.draws := rfl
end

section
variable (s : State)
@[simp] theorem State.controllerReset_cfg : (s.controllerReset).cfg = s.cfg := rfl
@[simp] theorem State.controllerReset_res : (s.controllerReset).res = s.res := rfl
@[simp] theorem State.controllerReset_pend : (s.controllerReset).pend = s.pend := rfl
@[simp] theorem State.controllerReset_fifo : (s.controllerReset).fifo = ⟨s.fifo.rx.cleared, s.fifo.tx.cleared, false, .xonSent⟩ := rfl
@[simp] theorem State.controllerReset_flag : (s.controllerReset).flag = ⟨0, 0, false⟩ := rfl
@[simp] theorem State.controllerReset_i2c : (s.controllerReset).i2c = s.i2c := rfl
@[simp] theorem State.controllerReset_ee : (s.controllerReset).ee = s.ee := rfl
@[simp] theorem State.controllerReset_buf : (s.controllerReset).buf = s.buf := rfl
@[simp] theorem State.controllerReset_logs : (s.controllerReset).logs = s.logs := rfl
@[simp] theorem State.controllerReset_prog : (s.controllerReset).prog = s.prog := rfl
@[simp] theorem State.controllerReset_ip : (s.controllerReset).ip = s.ip := rfl
@[simp] theorem State.controllerReset_busIn : (s.controllerReset).busIn = s.busIn := rfl
@[simp] theorem State.controllerReset_sched : (s.controllerReset).sched = s.sched := rfl
@[simp] theorem State.controllerReset_cur : (s.controllerReset).cur = s.cur := rfl
@[simp] theorem State.controllerReset_draws : (s.controllerReset).draws = s.draws := rfl
end

section
variable (a : BitVec 7) (rw : Dir) (r : StartAnswer) (s : State)
@[simp] theorem State.startPhase_cfg : (s.startPhase a rw r).cfg = s.cfg := rfl
@[simp] theorem State.startPhase_res : (s.startPhase a rw r).res = s.res := rfl
@[simp] theorem State.startPhase_pend : (s.startPhase a rw r).pend = s.pend := rfl
@[simp] theorem State.startPhase_fifo : (s.startPhase a rw r).fifo = s.fifo := rfl
@[simp] theorem State.startPhase_flag : (s.startPhase a rw r).flag = s.flag := rfl
@[simp] theorem State.startPhase_i2c : (s.startPhase a rw r).i2c = ⟨.started, rw, r != .ok, a, startStatus s.i2c.phase.isOpen r⟩ := rfl
@[simp] theorem State.startPhase_ee : (s.startPhase a rw r).ee = s.ee := rfl
@[simp] theorem State.startPhase_buf : (s.startPhase a rw r).buf = s.buf := rfl
@[simp] theorem State.startPhase_logs : (s.startPhase a rw r).logs = { s.logs with busLog := s.logs.busLog ++ [startEvent s.i2c.phase.isOpen r] } := rfl
@[simp] theorem State.startPhase_prog : (s.startPhase a rw r).prog = s.prog := rfl
@[simp] theorem State.startPhase_ip : (s.startPhase a rw r).ip = s.ip := rfl
@[simp] theorem State.startPhase_busIn : (s.startPhase a rw r).busIn = s.busIn := rfl
@[simp] theorem State.startPhase_sched : (s.startPhase a rw r).sched = s.sched := rfl
@[simp] theorem State.startPhase_cur : (s.startPhase a rw r).cur = s.cur := rfl
@[simp] theorem State.startPhase_draws : (s.startPhase a rw r).draws = s.draws := rfl
end

section
variable (a : BitVec 7) (rw : Dir) (r : ByteAnswer) (s : State)
@[simp] theorem State.addrPhase_cfg : (s.addrPhase a rw r).cfg = s.cfg := rfl
@[simp] theorem State.addrPhase_res : (s.addrPhase a rw r).res = s.res := rfl
@[simp] theorem State.addrPhase_pend : (s.addrPhase a rw r).pend = s.pend := rfl
@[simp] theorem State.addrPhase_fifo : (s.addrPhase a rw r).fifo = s.fifo := rfl
@[simp] theorem State.addrPhase_flag : (s.addrPhase a rw r).flag = s.flag := rfl
@[simp] theorem State.addrPhase_i2c : (s.addrPhase a rw r).i2c = { s.i2c with phase := .addressSent, nak := r != .ack, lastBs := addrStatus rw r } := rfl
@[simp] theorem State.addrPhase_ee : (s.addrPhase a rw r).ee = s.ee := rfl
@[simp] theorem State.addrPhase_buf : (s.addrPhase a rw r).buf = s.buf := rfl
@[simp] theorem State.addrPhase_logs : (s.addrPhase a rw r).logs = { s.logs with busLog := s.logs.busLog ++ [.a (addrByte a rw) r] } := rfl
@[simp] theorem State.addrPhase_prog : (s.addrPhase a rw r).prog = s.prog := rfl
@[simp] theorem State.addrPhase_ip : (s.addrPhase a rw r).ip = s.ip := rfl
@[simp] theorem State.addrPhase_busIn : (s.addrPhase a rw r).busIn = s.busIn := rfl
@[simp] theorem State.addrPhase_sched : (s.addrPhase a rw r).sched = s.sched := rfl
@[simp] theorem State.addrPhase_cur : (s.addrPhase a rw r).cur = s.cur := rfl
@[simp] theorem State.addrPhase_draws : (s.addrPhase a rw r).draws = s.draws := rfl
end

section
variable (d : Byte) (r : ByteAnswer) (s : State)
@[simp] theorem State.writePhase_cfg : (s.writePhase d r).cfg = s.cfg := rfl
@[simp] theorem State.writePhase_res : (s.writePhase d r).res = s.res := rfl
@[simp] theorem State.writePhase_pend : (s.writePhase d r).pend = s.pend := rfl
@[simp] theorem State.writePhase_fifo : (s.writePhase d r).fifo = s.fifo := rfl
@[simp] theorem State.writePhase_flag : (s.writePhase d r).flag = s.flag := rfl
@[simp] theorem State.writePhase_i2c : (s.writePhase d r).i2c = { s.i2c with phase := .dataPhase, nak := r != .ack, lastBs := writeStatus r } := rfl
@[simp] theorem State.writePhase_ee : (s.writePhase d r).ee = s.ee := rfl
@[simp] theorem State.writePhase_buf : (s.writePhase d r).buf = s.buf := rfl
@[simp] theorem State.writePhase_logs : (s.writePhase d r).logs = { s.logs with busLog := s.logs.busLog ++ [.w d r] } := rfl
@[simp] theorem State.writePhase_prog : (s.writePhase d r).prog = s.prog := rfl
@[simp] theorem State.writePhase_ip : (s.writePhase d r).ip = s.ip := rfl
@[simp] theorem State.writePhase_busIn : (s.writePhase d r).busIn = s.busIn := rfl
@[simp] theorem State.writePhase_sched : (s.writePhase d r).sched = s.sched := rfl
@[simp] theorem State.writePhase_cur : (s.writePhase d r).cur = s.cur := rfl
@[simp] theorem State.writePhase_draws : (s.writePhase d r).draws = s.draws := rfl
end

section
variable (m : ReadReply) (b : Byte) (s : State)
@[simp] theorem State.readPhase_cfg : (s.readPhase m b).cfg = s.cfg := rfl
@[simp] theorem State.readPhase_res : (s.readPhase m b).res = s.res := rfl
@[simp] theorem State.readPhase_pend : (s.readPhase m b).pend = s.pend := rfl
@[simp] theorem State.readPhase_fifo : (s.readPhase m b).fifo = s.fifo := rfl
@[simp] theorem State.readPhase_flag : (s.readPhase m b).flag = s.flag := rfl
@[simp] theorem State.readPhase_i2c : (s.readPhase m b).i2c = { s.i2c with phase := .dataPhase, nak := m == .nack, lastBs := readStatus m } := rfl
@[simp] theorem State.readPhase_ee : (s.readPhase m b).ee = s.ee := rfl
@[simp] theorem State.readPhase_buf : (s.readPhase m b).buf = s.buf := rfl
@[simp] theorem State.readPhase_logs : (s.readPhase m b).logs = { s.logs with busLog := s.logs.busLog ++ [.r b m] } := rfl
@[simp] theorem State.readPhase_prog : (s.readPhase m b).prog = s.prog := rfl
@[simp] theorem State.readPhase_ip : (s.readPhase m b).ip = s.ip := rfl
@[simp] theorem State.readPhase_busIn : (s.readPhase m b).busIn = s.busIn := rfl
@[simp] theorem State.readPhase_sched : (s.readPhase m b).sched = s.sched := rfl
@[simp] theorem State.readPhase_cur : (s.readPhase m b).cur = s.cur := rfl
@[simp] theorem State.readPhase_draws : (s.readPhase m b).draws = s.draws := rfl
end

section
variable (s : State)
@[simp] theorem State.stopPhase_cfg : (s.stopPhase).cfg = s.cfg := rfl
@[simp] theorem State.stopPhase_res : (s.stopPhase).res = s.res := rfl
@[simp] theorem State.stopPhase_pend : (s.stopPhase).pend = s.pend := rfl
@[simp] theorem State.stopPhase_fifo : (s.stopPhase).fifo = s.fifo := rfl
@[simp] theorem State.stopPhase_flag : (s.stopPhase).flag = s.flag := rfl
@[simp] theorem State.stopPhase_i2c : (s.stopPhase).i2c = { s.i2c with phase := .stopped, dir := .write, nak := false, lastBs := .stop } := rfl
@[simp] theorem State.stopPhase_ee : (s.stopPhase).ee = s.ee := rfl
@[simp] theorem State.stopPhase_buf : (s.stopPhase).buf = s.buf := rfl
@[simp] theorem State.stopPhase_logs : (s.stopPhase).logs = { s.logs with busLog := s.logs.busLog ++ [.p] } := rfl
@[simp] theorem State.stopPhase_prog : (s.stopPhase).prog = s.prog := rfl
@[simp] theorem State.stopPhase_ip : (s.stopPhase).ip = s.ip := rfl
@[simp] theorem State.stopPhase_busIn : (s.stopPhase).busIn = s.busIn := rfl
@[simp] theorem State.stopPhase_sched : (s.stopPhase).sched = s.sched := rfl
@[simp] theorem State.stopPhase_cur : (s.stopPhase).cur = s.cur := rfl
@[simp] theorem State.stopPhase_draws : (s.stopPhase).draws = s.draws := rfl
end

section
variable (m : Memory) (sp : Space) (s : State)
@[simp] theorem State.setMem_cfg : (s.setMem m sp).cfg = s.cfg := by cases sp <;> rfl
@[simp] theorem State.setMem_res : (s.setMem m sp).res = s.res := by cases sp <;> rfl
@[simp] theorem State.setMem_pend : (s.setMem m sp).pend = s.pend := by cases sp <;> rfl
@[simp] theorem State.setMem_flag : (s.setMem m sp).flag = s.flag := by cases sp <;> rfl
@[simp] theorem State.setMem_i2c : (s.setMem m sp).i2c = s.i2c := by cases sp <;> rfl
@[simp] theorem State.setMem_logs : (s.setMem m sp).logs = s.logs := by cases sp <;> rfl
@[simp] theorem State.setMem_prog : (s.setMem m sp).prog = s.prog := by cases sp <;> rfl
@[simp] theorem State.setMem_ip : (s.setMem m sp).ip = s.ip := by cases sp <;> rfl
@[simp] theorem State.setMem_busIn : (s.setMem m sp).busIn = s.busIn := by cases sp <;> rfl
@[simp] theorem State.setMem_sched : (s.setMem m sp).sched = s.sched := by cases sp <;> rfl
@[simp] theorem State.setMem_cur : (s.setMem m sp).cur = s.cur := by cases sp <;> rfl
@[simp] theorem State.setMem_draws : (s.setMem m sp).draws = s.draws := by cases sp <;> rfl
end

section
variable (u : Queue) (q : QueueId) (s : State)
@[simp] theorem State.setQueue_cfg : (s.setQueue u q).cfg = s.cfg := by cases q <;> rfl
@[simp] theorem State.setQueue_res : (s.setQueue u q).res = s.res := by cases q <;> rfl
@[simp] theorem State.setQueue_pend : (s.setQueue u q).pend = s.pend := by cases q <;> rfl
@[simp] theorem State.setQueue_flag : (s.setQueue u q).flag = s.flag := by cases q <;> rfl
@[simp] theorem State.setQueue_i2c : (s.setQueue u q).i2c = s.i2c := by cases q <;> rfl
@[simp] theorem State.setQueue_ee : (s.setQueue u q).ee = s.ee := by cases q <;> rfl
@[simp] theorem State.setQueue_buf : (s.setQueue u q).buf = s.buf := by cases q <;> rfl
@[simp] theorem State.setQueue_logs : (s.setQueue u q).logs = s.logs := by cases q <;> rfl
@[simp] theorem State.setQueue_prog : (s.setQueue u q).prog = s.prog := by cases q <;> rfl
@[simp] theorem State.setQueue_ip : (s.setQueue u q).ip = s.ip := by cases q <;> rfl
@[simp] theorem State.setQueue_busIn : (s.setQueue u q).busIn = s.busIn := by cases q <;> rfl
@[simp] theorem State.setQueue_sched : (s.setQueue u q).sched = s.sched := by cases q <;> rfl
@[simp] theorem State.setQueue_cur : (s.setQueue u q).cur = s.cur := by cases q <;> rfl
@[simp] theorem State.setQueue_draws : (s.setQueue u q).draws = s.draws := by cases q <;> rfl
@[simp] theorem State.setQueue_queue_same : (s.setQueue u q).queue q = u := by cases q <;> rfl
theorem State.setQueue_queue_other (r : QueueId) (h : r ≠ q) : (s.setQueue u q).queue r = s.queue r := by
  cases q <;> cases r <;> first | rfl | exact absurd rfl h
end

section
variable (s : State)
@[simp] theorem State.rxStored_cfg : s.rxStored.cfg = s.cfg := by unfold State.rxStored; split <;> rfl
@[simp] theorem State.rxStored_res : s.rxStored.res = s.res := by unfold State.rxStored; split <;> rfl
@[simp] theorem State.rxStored_pend : s.rxStored.pend = s.pend := by unfold State.rxStored; split <;> rfl
@[simp] theorem State.rxStored_flag : s.rxStored.flag = s.flag := by unfold State.rxStored; split <;> rfl
@[simp] theorem State.rxStored_i2c : s.rxStored.i2c = s.i2c := by unfold State.rxStored; split <;> rfl
@[simp] theorem State.rxStored_ee : s.rxStored.ee = s.ee := by unfold State.rxStored; split <;> rfl
@[simp] theorem State.rxStored_buf : s.rxStored.buf = s.buf := by unfold State.rxStored; split <;> rfl
@[simp] theorem State.rxStored_logs : s.rxStored.logs = s.logs := by unfold State.rxStored; split <;> rfl
@[simp] theorem State.rxStored_prog : s.rxStored.prog = s.prog := by unfold State.rxStored; split <;> rfl
@[simp] theorem State.rxStored_ip : s.rxStored.ip = s.ip := by unfold State.rxStored; split <;> rfl
@[simp] theorem State.rxStored_busIn : s.rxStored.busIn = s.busIn := by unfold State.rxStored; split <;> rfl
@[simp] theorem State.rxStored_sched : s.rxStored.sched = s.sched := by unfold State.rxStored; split <;> rfl
@[simp] theorem State.rxStored_cur : s.rxStored.cur = s.cur := by unfold State.rxStored; split <;> rfl
@[simp] theorem State.rxStored_draws : s.rxStored.draws = s.draws := by unfold State.rxStored; split <;> rfl
end

section
variable (s : State)
@[simp] theorem State.rxPopped_cfg : s.rxPopped.cfg = s.cfg := by unfold State.rxPopped; split <;> rfl
@[simp] theorem State.rxPopped_res : s.rxPopped.res = s.res := by unfold State.rxPopped; split <;> rfl
@[simp] theorem State.rxPopped_pend : s.rxPopped.pend = s.pend := by unfold State.rxPopped; split <;> rfl
@[simp] theorem State.rxPopped_flag : s.rxPopped.flag = s.flag := by unfold State.rxPopped; split <;> rfl
@[simp] theorem State.rxPopped_i2c : s.rxPopped.i2c = s.i2c := by unfold State.rxPopped; split <;> rfl
@[simp] theorem State.rxPopped_ee : s.rxPopped.ee = s.ee := by unfold State.rxPopped; split <;> rfl
@[simp] theorem State.rxPopped_buf : s.rxPopped.buf = s.buf := by unfold State.rxPopped; split <;> rfl
@[simp] theorem State.rxPopped_logs : s.rxPopped.logs = s.logs := by unfold State.rxPopped; split <;> rfl
@[simp] theorem State.rxPopped_prog : s.rxPopped.prog = s.prog := by unfold State.rxPopped; split <;> rfl
@[simp] theorem State.rxPopped_ip : s.rxPopped.ip = s.ip := by unfold State.rxPopped; split <;> rfl
@[simp] theorem State.rxPopped_busIn : s.rxPopped.busIn = s.busIn := by unfold State.rxPopped; split <;> rfl
@[simp] theorem State.rxPopped_sched : s.rxPopped.sched = s.sched := by unfold State.rxPopped; split <;> rfl
@[simp] theorem State.rxPopped_cur : s.rxPopped.cur = s.cur := by unfold State.rxPopped; split <;> rfl
@[simp] theorem State.rxPopped_draws : s.rxPopped.draws = s.draws := by unfold State.rxPopped; split <;> rfl
end

end Sys2Proof.Machine
end

