-- ==== Sys2Proof/Laws/Memory.lean ====
section
/-! SUPPORT. Memory in canonical form: a read after a write, and that every memory operation keeps the form. -/

namespace Sys2Proof.Machine

theorem Mem.get?_put (m : Memory) (a b : Nat) (v : Byte) :
    Mem.get? (Mem.put m a v) b = if b = a then some v else Mem.get? m b := by
  induction m with
  | nil => simp [Mem.put, Mem.get?, eq_comm]
  | cons c m ih =>
    obtain ⟨k, w⟩ := c
    unfold Mem.put
    split
    · by_cases h : b = a
      · simp [Mem.get?, h]
      · simp [Mem.get?, h, Ne.symm h, eq_comm]
    · split
      · rename_i he; subst he
        by_cases h : b = a
        · simp [Mem.get?, h]
        · simp [Mem.get?, h, Ne.symm h]
      · rename_i h1 h2
        by_cases h : b = a
        · subst h; simp [Mem.get?, ih, Ne.symm h2]
        · by_cases hk : k = b <;> simp [Mem.get?, ih, h, hk]

theorem Mem.get?_erase (m : Memory) (a b : Nat) :
    Mem.get? (Mem.erase m a) b = if b = a then none else Mem.get? m b := by
  induction m with
  | nil => simp [Mem.erase, Mem.get?]
  | cons c m ih =>
    obtain ⟨k, w⟩ := c
    unfold Mem.erase at ih ⊢
    by_cases hk : k = a
    · subst hk
      by_cases h : b = k <;> simp_all [Mem.get?]
      exact fun e => absurd e.symm h
    · by_cases h : b = a
      · subst h; simp_all [Mem.get?]
      · by_cases hb : k = b <;> simp_all [Mem.get?]

theorem Mem.mem_put (m : Memory) (a : Nat) (v : Byte) (c : Host.Cell) (h : c ∈ Mem.put m a v) :
    c = (a, v) ∨ c ∈ m := by
  induction m with
  | nil => simpa [Mem.put] using h
  | cons d m ih =>
    obtain ⟨k, w⟩ := d
    unfold Mem.put at h
    split at h
    · simpa using h
    · split at h
      · rcases List.mem_cons.1 h with h | h
        · exact .inl h
        · exact .inr (List.mem_cons_of_mem _ h)
      · rcases List.mem_cons.1 h with h | h
        · exact .inr (h ▸ List.mem_cons_self)
        · exact (ih h).imp id (List.mem_cons_of_mem _)

theorem Mem.sorted_put (m : Memory) (a : Nat) (v : Byte) (h : m.Pairwise (fun c d => c.1 < d.1)) :
    (Mem.put m a v).Pairwise (fun c d => c.1 < d.1) := by
  induction m with
  | nil => simp [Mem.put]
  | cons d m ih =>
    obtain ⟨k, w⟩ := d
    rw [List.pairwise_cons] at h
    unfold Mem.put
    split
    · rename_i hk
      refine List.pairwise_cons.2 ⟨fun c hc => ?_, List.pairwise_cons.2 h⟩
      rcases List.mem_cons.1 hc with rfl | hc
      · exact hk
      · exact lt_trans hk (h.1 c hc)
    · split
      · rename_i he; subst he
        exact List.pairwise_cons.2 ⟨h.1, h.2⟩
      · rename_i h1 h2
        refine List.pairwise_cons.2 ⟨fun c hc => ?_, ih h.2⟩
        rcases Mem.mem_put m a v c hc with rfl | hc
        · simp only; omega
        · exact h.1 c hc

/-- A write keeps the canonical form. -/
theorem Mem.wf_write {u : Option Byte} {size : Nat} {m : Memory} {a : Nat} {v : Byte}
    (h : Mem.Wf u size m) (ha : a < size) : Mem.Wf u size (Mem.write u m a v) := by
  unfold Mem.write
  split
  · exact ⟨h.1.filter _, fun c hc => h.2 c (List.mem_of_mem_filter hc)⟩
  · rename_i hv
    refine ⟨Mem.sorted_put m a v h.1, fun c hc => ?_⟩
    rcases Mem.mem_put m a v c hc with rfl | hc
    · exact ⟨Ne.symm hv, ha⟩
    · exact h.2 c hc

theorem Mem.get?_write (u : Option Byte) (m : Memory) (a b : Nat) (v : Byte) :
    ((Mem.get? (Mem.write u m a v) b).or u) = if b = a then some v else (Mem.get? m b).or u := by
  unfold Mem.write
  split
  · rename_i h; subst h
    rw [Mem.get?_erase]; split <;> simp
  · rw [Mem.get?_put]; split <;> simp

theorem Mem.get?_write_none (m : Memory) (a b : Nat) (v : Byte) :
    Mem.get? (Mem.write none m a v) b = if b = a then some v else Mem.get? m b := by
  simpa using Mem.get?_write none m a b v

/-! ## The spaces of a state -/

@[simp] theorem State.mem_setMem_same (s : State) (m : Memory) (sp : Space) : (s.setMem m sp).mem sp = m := by
  cases sp <;> rfl

theorem State.mem_setMem_other (s : State) (m : Memory) (sp sq : Space) (h : sq ≠ sp) :
    (s.setMem m sp).mem sq = s.mem sq := by
  cases sp <;> cases sq <;> first | rfl | exact absurd rfl h

theorem State.peek_eq (s : State) (sp : Space) (a : Nat) : s.peek sp a = (Mem.get? (s.mem sp) a).or sp.unlisted := by
  unfold State.peek; cases Mem.get? (s.mem sp) a <;> rfl

/-- States with the same contents of a space read the same there. -/
theorem State.peek_congr {s t : State} {sp : Space} (h : t.mem sp = s.mem sp) (a : Nat) :
    t.peek sp a = s.peek sp a := by
  rw [State.peek_eq, State.peek_eq, h]

/-- What a byte of any space reads as after a write: the byte written at its address, and every other byte of
every space as before. -/
theorem State.peek_write (s : State) (sp sq : Space) (a b : Nat) (v : Byte) :
    (s.setMem (Mem.write sp.unlisted (s.mem sp) a v) sp).peek sq b =
      if sq = sp ∧ b = a then some v else s.peek sq b := by
  by_cases h : sq = sp
  · subst h
    rw [State.peek_eq, State.mem_setMem_same, Mem.get?_write, State.peek_eq]
    simp
  · rw [State.peek_congr (State.mem_setMem_other s _ sp sq h)]
    simp [h]

/-- A settled byte exists everywhere but in BUF (R53, R70). -/
theorem State.peek_isSome (s : State) {sp : Space} (h : sp ≠ .bufmem) (a : Nat) : ∃ v, s.peek sp a = some v := by
  rw [State.peek_eq]
  cases sp <;> first | exact absurd rfl h | (cases Mem.get? _ a <;> exact ⟨_, rfl⟩)

theorem State.peek_buf (s : State) (a : Nat) : s.peek .bufmem a = Mem.get? s.buf a := by
  rw [State.peek_eq]; exact Option.or_none

/-! ## readByte and writeByte -/

theorem readByte_settled {sp : Space} {a : Nat} {s : State} {k : Byte → State → Out} {v : Byte}
    (ha : a < sp.size s.cfg) (hv : s.peek sp a = some v) : readByte sp a s k = k v s := by
  simp [readByte, ha, hv]

theorem readByte_free {a : Nat} {s : State} {k : Byte → State → Out} (ha : a < 256) (hv : s.peek .bufmem a = none) :
    readByte .bufmem a s k = k (Config.freeByte s.draws) (s.setDraws (s.draws + 1)) := by
  have : a < Space.bufmem.size s.cfg := ha
  simp [readByte, this, hv]

/-- Everything a read can do: its byte is the settled one and the state goes on as it is, or the byte is a free
value and one draw is counted. -/
theorem readByte_next {sp : Space} {a : Nat} {s t : State} {k : Byte → State → Out} (h : readByte sp a s k = .next t) :
    a < sp.size s.cfg ∧
      ((∃ v, s.peek sp a = some v ∧ k v s = .next t) ∨
       (sp = .bufmem ∧ s.peek sp a = none ∧ k (Config.freeByte s.draws) (s.setDraws (s.draws + 1)) = .next t)) := by
  unfold readByte at h
  split at h
  · rename_i ha
    refine ⟨ha, ?_⟩
    cases hp : s.peek sp a with
    | some v => rw [hp] at h; exact .inl ⟨v, rfl, h⟩
    | none =>
      rw [hp] at h
      refine .inr ⟨?_, rfl, h⟩
      by_contra hs
      obtain ⟨v, hv⟩ := s.peek_isSome hs a
      rw [hp] at hv; cases hv
  · cases h

theorem writeByte_eq {sp : Space} {a : Nat} {v : Byte} {s : State} {k : State → Out} (ha : a < sp.size s.cfg) :
    writeByte sp a v s k = k (s.setMem (Mem.write sp.unlisted (s.mem sp) a v) sp) := by
  simp [writeByte, ha]

/-- Everything a write can do. -/
theorem writeByte_next {sp : Space} {a : Nat} {v : Byte} {s t : State} {k : State → Out}
    (h : writeByte sp a v s k = .next t) :
    a < sp.size s.cfg ∧ k (s.setMem (Mem.write sp.unlisted (s.mem sp) a v) sp) = .next t := by
  unfold writeByte at h
  split at h
  · exact ⟨‹_›, h⟩
  · cases h

/-! ## Canonical form of the whole memory -/

/-- A write into one space keeps the canonical form of every space. -/
theorem State.mem_wf_write {s : State} {sp : Space} {a : Nat} {v : Byte} (ha : a < sp.size s.cfg)
    (h : ∀ sq, Mem.Wf sq.unlisted (sq.size s.cfg) (s.mem sq)) (sq : Space) :
    Mem.Wf sq.unlisted (sq.size s.cfg) ((s.setMem (Mem.write sp.unlisted (s.mem sp) a v) sp).mem sq) := by
  by_cases hs : sq = sp
  · subst hs
    rw [State.mem_setMem_same]
    exact Mem.wf_write (h sq) ha
  · rw [State.mem_setMem_other _ _ _ _ hs]
    exact h sq

/-- Power-on memory is in canonical form wherever EE_INIT is. -/
theorem State.mem_wf_por {c : Params} (h : Mem.Wf Space.eemem.unlisted c.eeSize c.eeInit) (sp : Space) :
    Mem.Wf sp.unlisted (sp.size c) ((State.por c).mem sp) := by
  cases sp
  · exact ⟨List.Pairwise.nil, fun _ hc => by cases hc⟩
  · exact ⟨List.Pairwise.nil, fun _ hc => by cases hc⟩
  · exact h
  · exact ⟨List.Pairwise.nil, fun _ hc => by cases hc⟩

/-- The memory of the reset state is in canonical form. -/
theorem State.mem_wf_reset (sp : Space) :
    Mem.Wf sp.unlisted (sp.size State.reset.cfg) (State.reset.mem sp) :=
  State.mem_wf_por ⟨List.Pairwise.nil, fun _ hc => by cases hc⟩ sp

end Sys2Proof.Machine
end

