-- ==== Sys2Proof/Laws/Ops.lean ====
section
/-! SUPPORT. One lemma per shared operation that says what it can do, for a proof to cite instead of unfolding it. -/

namespace Sys2Proof.Machine

/-! ## The port check -/

theorem onPort_allowed {i : Instr} {s : State} {body : Out} (h : allowed i s.cur = true) : onPort i s body = body := by
  simp [onPort, h]

theorem onPort_refused {i : Instr} {s : State} {body : Out} (h : allowed i s.cur = false) :
    onPort i s body = .next (s.finish .errIllegal 0) := by
  simp [onPort, h]

theorem onPort_next {i : Instr} {s t : State} {body : Out} (h : onPort i s body = .next t) :
    (allowed i s.cur = true ∧ body = .next t) ∨ (allowed i s.cur = false ∧ t = s.finish .errIllegal 0) := by
  unfold onPort at h
  split at h
  · exact .inl ⟨‹_›, h⟩
  · cases h; exact .inr ⟨Bool.eq_false_iff.2 ‹_›, rfl⟩

/-! ## Queue geometry (R37, R39, R40) -/

theorem nextPtr_toNat {c : Nat} {x : Byte} (hc : c ≤ 256) (hx : x.toNat < c) :
    (nextPtr c x).toNat = if x.toNat + 1 = c then 0 else x.toNat + 1 := by
  unfold nextPtr
  split
  · rfl
  · rename_i h
    rw [BitVec.toNat_add]
    exact Nat.mod_eq_of_lt (show x.toNat + 1 < 256 by omega)

theorem nextPtr_lt {c : Nat} {x : Byte} (hc : c ≤ 256) (hx : x.toNat < c) : (nextPtr c x).toNat < c := by
  rw [nextPtr_toNat hc hx]; split <;> omega

theorem Queue.isEmpty_iff (u : Queue) : u.isEmpty = true ↔ u.head.toNat = u.tail.toNat := by
  simp [Queue.isEmpty, BitVec.toNat_inj]

theorem Queue.isFull_iff {c : Nat} {u : Queue} (hc : c ≤ 256) (h : u.head.toNat < c) :
    u.isFull c = true ↔ (if u.head.toNat + 1 = c then 0 else u.head.toNat + 1) = u.tail.toNat := by
  rw [← nextPtr_toNat hc h]; simp [Queue.isFull, BitVec.toNat_inj]

theorem Queue.count_lt {c : Nat} {u : Queue} (h : u.InRange c) : u.count c < c := by
  obtain ⟨h1, h2⟩ := h
  unfold Queue.count; split <;> omega

/-! ## enqueue and dequeue -/

theorem enqueue_next {q : QueueId} {d : Byte} {s t : State} {k : State → Out} (h : enqueue q d s k = .next t) :
    (s.queue q).head.toNat < capacity s.cfg q ∧
      k ((s.setMem (Mem.write (slotSpace q).unlisted (s.mem (slotSpace q)) (s.queue q).head.toNat d) (slotSpace q)).setQueue
        ⟨Mem.write (slotSpace q).unlisted (s.mem (slotSpace q)) (s.queue q).head.toNat d,
          nextPtr (capacity s.cfg q) (s.queue q).head, (s.queue q).tail⟩ q) = .next t := by
  unfold enqueue at h
  obtain ⟨h1, h2⟩ := writeByte_next h
  cases q <;> exact ⟨h1, h2⟩

theorem enqueue_eq {q : QueueId} {d : Byte} {s : State} {k : State → Out}
    (h : (s.queue q).head.toNat < capacity s.cfg q) :
    enqueue q d s k =
      k ((s.setMem (Mem.write (slotSpace q).unlisted (s.mem (slotSpace q)) (s.queue q).head.toNat d) (slotSpace q)).setQueue
        ⟨Mem.write (slotSpace q).unlisted (s.mem (slotSpace q)) (s.queue q).head.toNat d,
          nextPtr (capacity s.cfg q) (s.queue q).head, (s.queue q).tail⟩ q) := by
  unfold enqueue
  cases q <;> exact writeByte_eq h

theorem dequeue_next {q : QueueId} {s t : State} {k : Byte → State → Out} (h : dequeue q s k = .next t) :
    (s.queue q).tail.toNat < capacity s.cfg q ∧
      ∃ v, s.peek (slotSpace q) (s.queue q).tail.toNat = some v ∧
        k v (s.setQueue { s.queue q with tail := nextPtr (capacity s.cfg q) (s.queue q).tail } q) = .next t := by
  unfold dequeue at h
  obtain ⟨h1, h2⟩ := readByte_next h
  rcases h2 with ⟨v, hv, hk⟩ | ⟨hb, -, -⟩
  · cases q <;> exact ⟨h1, v, hv, hk⟩
  · cases q <;> cases hb

theorem dequeue_eq {q : QueueId} {s : State} {k : Byte → State → Out} {v : Byte}
    (h : (s.queue q).tail.toNat < capacity s.cfg q)
    (hv : s.peek (slotSpace q) (s.queue q).tail.toNat = some v) :
    dequeue q s k = k v (s.setQueue { s.queue q with tail := nextPtr (capacity s.cfg q) (s.queue q).tail } q) := by
  unfold dequeue
  cases q <;> exact readByte_settled h hv

/-! ## Bus answers -/

theorem onAnswer_some {α : Type} {sel : BusAnswer → Option α} {i : Instr} {s : State} {k : α → State → Out} {r : α}
    (h : s.answer sel = some r) : onAnswer sel i s k = k r (s.setBusIn s.busIn.tail) := by
  simp [onAnswer, h]

theorem onAnswer_none {α : Type} {sel : BusAnswer → Option α} {i : Instr} {s : State} {k : α → State → Out}
    (h : s.answer sel = none) : onAnswer sel i s k = .next (s.hold i) := by
  simp [onAnswer, h]

/-- Everything a bus phase can do: it is answered, and one answer is used up, or the operation holds. -/
theorem onAnswer_next {α : Type} {sel : BusAnswer → Option α} {i : Instr} {s t : State} {k : α → State → Out}
    (h : onAnswer sel i s k = .next t) :
    (∃ r, s.answer sel = some r ∧ k r (s.setBusIn s.busIn.tail) = .next t) ∨
      (s.answer sel = none ∧ t = s.hold i) := by
  unfold onAnswer at h
  split at h
  · exact .inl ⟨_, ‹_›, h⟩
  · cases h; exact .inr ⟨‹_›, rfl⟩

theorem busStart_next {i : Instr} {a : BitVec 7} {rw : Dir} {s t : State} {f g : State → Out}
    (h : busStart i a rw s f g = .next t) :
    (s.answer BusAnswer.start? = some .ok ∧ f ((s.setBusIn s.busIn.tail).startPhase a rw .ok) = .next t) ∨
      (∃ r, r ≠ .ok ∧ s.answer BusAnswer.start? = some r ∧
        g ((s.setBusIn s.busIn.tail).startPhase a rw r) = .next t) ∨
      (s.answer BusAnswer.start? = none ∧ t = s.hold i) := by
  rcases onAnswer_next h with ⟨r, hr, hk⟩ | hn
  · split at hk
    · rename_i he; subst he; exact .inl ⟨hr, hk⟩
    · exact .inr (.inl ⟨r, ‹_›, hr, hk⟩)
  · exact .inr (.inr hn)

/-- Everything a start that is one transition can do: it is answered as far as it goes, or it holds. -/
theorem startWhole_next {i : Instr} {a : BitVec 7} {rw : Dir} {s t : State} (h : startWhole i a rw s = .next t) :
    t = s.hold i ∨
      (∃ r, r ≠ .ok ∧ s.answer BusAnswer.start? = some r ∧
        t = (((s.setBusIn s.busIn.tail).startPhase a rw r).finishBus .i2cFail)) ∨
      (∃ q, s.answer BusAnswer.start? = some .ok ∧ (s.setBusIn s.busIn.tail).answer BusAnswer.byteAnswer? = some q ∧
        t = State.finishBus (if q = .ack then .ok else .i2cFail)
          ((((s.setBusIn s.busIn.tail).startPhase a rw .ok).setBusIn s.busIn.tail.tail).addrPhase a rw q)) := by
  rcases onAnswer_next h with ⟨r, hr, h⟩ | ⟨_, rfl⟩
  · split at h
    · subst r
      split at h
      · cases h; exact .inr (.inr ⟨_, hr, ‹_›, rfl⟩)
      · cases h; exact .inl rfl
    · cases h; exact .inr (.inl ⟨r, ‹_›, hr, rfl⟩)
  · exact .inl rfl

theorem busAddr_next {i : Instr} {a : BitVec 7} {rw : Dir} {s t : State} {f g : State → Out}
    (h : busAddr i a rw s f g = .next t) :
    (s.answer BusAnswer.byteAnswer? = some .ack ∧ f ((s.setBusIn s.busIn.tail).addrPhase a rw .ack) = .next t) ∨
      (∃ r, r ≠ .ack ∧ s.answer BusAnswer.byteAnswer? = some r ∧
        g ((s.setBusIn s.busIn.tail).addrPhase a rw r) = .next t) ∨
      (s.answer BusAnswer.byteAnswer? = none ∧ t = s.hold i) := by
  rcases onAnswer_next h with ⟨r, hr, hk⟩ | hn
  · split at hk
    · rename_i he; subst he; exact .inl ⟨hr, hk⟩
    · exact .inr (.inl ⟨r, ‹_›, hr, hk⟩)
  · exact .inr (.inr hn)

theorem busWrite_next {i : Instr} {d : Byte} {s t : State} {f g : State → Out}
    (h : busWrite i d s f g = .next t) :
    (s.answer BusAnswer.byteAnswer? = some .ack ∧ f ((s.setBusIn s.busIn.tail).writePhase d .ack) = .next t) ∨
      (∃ r, r ≠ .ack ∧ s.answer BusAnswer.byteAnswer? = some r ∧
        g ((s.setBusIn s.busIn.tail).writePhase d r) = .next t) ∨
      (s.answer BusAnswer.byteAnswer? = none ∧ t = s.hold i) := by
  rcases onAnswer_next h with ⟨r, hr, hk⟩ | hn
  · split at hk
    · rename_i he; subst he; exact .inl ⟨hr, hk⟩
    · exact .inr (.inl ⟨r, ‹_›, hr, hk⟩)
  · exact .inr (.inr hn)

theorem busRead_next {i : Instr} {m : ReadReply} {s t : State} {k : Byte → State → Out}
    (h : busRead i m s k = .next t) :
    (∃ b, s.answer BusAnswer.readByte? = some b ∧ k b ((s.setBusIn s.busIn.tail).readPhase m b) = .next t) ∨
      (s.answer BusAnswer.readByte? = none ∧ t = s.hold i) :=
  onAnswer_next h

theorem busStop_next {i : Instr} {s t : State} {k : State → Out} (h : busStop i s k = .next t) :
    (s.i2c.phase.isOpen = true ∧ s.answer BusAnswer.done? = some () ∧
      k ((s.setBusIn s.busIn.tail).stopPhase) = .next t) ∨
      (s.i2c.phase.isOpen = true ∧ s.answer BusAnswer.done? = none ∧ t = s.hold i) ∨
      (s.i2c.phase.isOpen = false ∧ k s = .next t) := by
  unfold busStop at h
  split at h
  · rcases onAnswer_next h with ⟨r, hr, hk⟩ | ⟨hn, ht⟩
    · exact .inl ⟨‹_›, hr, hk⟩
    · exact .inr (.inl ⟨‹_›, hn, ht⟩)
  · exact .inr (.inr ⟨Bool.eq_false_iff.2 ‹_›, h⟩)

/-! ## EEPROM -/

theorem whenIdle_next {i : Instr} {s t : State} {k : Out} (h : whenIdle i s k = .next t) :
    (s.ee.busy = true ∧ t = s.hold i) ∨ (s.ee.busy = false ∧ k = .next t) := by
  unfold whenIdle at h
  split at h
  · cases h; exact .inl ⟨‹_›, rfl⟩
  · exact .inr ⟨Bool.eq_false_iff.2 ‹_›, h⟩

/-- Everything a `put` can do (R204): no cycle for a byte that is stored already, and otherwise one cycle in the mode
of R201. -/
theorem putByte_next {a : Nat} {v : Byte} {s t : State} {k : Mode → State → Out} (h : putByte a v s k = .next t) :
    a < s.cfg.eeSize ∧ ∃ old, s.peek .eemem a = some old ∧
      ((classify old v = .none ∧ k .none s = .next t) ∨
       (classify old v ≠ .none ∧ k (classify old v) (s.startCycle a (classify old v) old v) = .next t)) := by
  obtain ⟨h1, h2⟩ := readByte_next h
  refine ⟨h1, ?_⟩
  rcases h2 with ⟨old, ho, hk⟩ | ⟨hb, -, -⟩
  · refine ⟨old, ho, ?_⟩
    cases hc : classify old v <;> rw [hc] at hk <;>
      first
        | exact .inl ⟨rfl, hk⟩
        | exact .inr ⟨by simp, hk⟩
  · cases hb

theorem putByte_eq {a : Nat} {v old : Byte} {s : State} {k : Mode → State → Out} (ha : a < s.cfg.eeSize)
    (ho : s.peek .eemem a = some old) :
    putByte a v s k = if classify old v = .none then k .none s
      else k (classify old v) (s.startCycle a (classify old v) old v) := by
  have : a < Space.eemem.size s.cfg := ha
  unfold putByte
  rw [readByte_settled this ho]
  cases classify old v <;> rfl

/-! ## Clearing BUF -/

/-- BUF after `zeroBuf n`: the first n bytes are written with 0. -/
def zeroed : Nat → Memory → Memory
  | 0, m => m
  | n + 1, m => zeroed n (Mem.write none m n 0x00)

theorem zeroed_get? (n : Nat) (m : Memory) (b : Nat) :
    Mem.get? (zeroed n m) b = if b < n then some 0x00 else Mem.get? m b := by
  induction n generalizing m with
  | zero => simp [zeroed]
  | succ n ih =>
    rw [zeroed, ih, Mem.get?_write_none]
    split <;> split <;> first | rfl | omega | skip
    · split <;> first | rfl | omega
    · split <;> first | rfl | omega

theorem zeroed_wf {n : Nat} {m : Memory} (hn : n ≤ 256) (h : Mem.Wf none 256 m) : Mem.Wf none 256 (zeroed n m) := by
  induction n generalizing m with
  | zero => exact h
  | succ n ih => exact ih (by omega) (Mem.wf_write h (by omega))

theorem zeroBuf_eq {n : Nat} {s : State} {k : State → Out} (h : n ≤ 256) :
    zeroBuf n s k = k (s.setBuf (zeroed n s.buf)) := by
  induction n generalizing s with
  | zero => rfl
  | succ n ih =>
    rw [zeroBuf, writeByte_eq (show n < Space.bufmem.size s.cfg from (by omega : n < 256)), ih (by omega)]
    rfl

theorem zeroBuf_next {n : Nat} {s t : State} {k : State → Out} (h : zeroBuf n s k = .next t) :
    n ≤ 256 ∧ k (s.setBuf (zeroed n s.buf)) = .next t := by
  by_cases hn : n ≤ 256
  · rw [zeroBuf_eq hn] at h; exact ⟨hn, h⟩
  · exfalso
    obtain ⟨m, rfl⟩ : ∃ m, n = m + 1 := ⟨n - 1, by omega⟩
    have := (writeByte_next h).1
    exact hn (by have : m < 256 := this; omega)

/-! ## Issuing -/

theorem State.decoded_run {s : State} {w : Word} {i : Instr} (h : decode w = some i) : s.decoded w = .run i s := by
  simp [State.decoded, h]

theorem State.decoded_illegal {s : State} {w : Word} (h : decode w = none) : s.decoded w = .illegal s := by
  simp [State.decoded, h]

/-- Everything one step can do. -/
theorem step_cases {s t : State} (h : step s = .next t) :
    (s.sched = [] ∧ eeDone s = .next t) ∨
      (∃ rest, s.sched = .eea :: rest ∧ eeDone (s.setSched rest) = .next t) ∨
      (∃ p rest, s.sched = .port p :: rest ∧
        ((((s.setSched rest).setCur p).issue = .idle t) ∨
         (∃ u, ((s.setSched rest).setCur p).issue = .illegal u ∧ t = u.finish .errIllegal 0) ∨
         (∃ i u, ((s.setSched rest).setCur p).issue = .run i u ∧ exec i u = .next t))) := by
  unfold step at h
  split at h
  · exact .inl ⟨‹_›, h⟩
  · exact .inr (.inl ⟨_, ‹_›, h⟩)
  · refine .inr (.inr ⟨_, _, ‹_›, ?_⟩)
    split at h
    · cases h; exact .inl ‹_›
    · cases h; exact .inr (.inl ⟨_, ‹_›, rfl⟩)
    · exact .inr (.inr ⟨_, _, ‹_›, h⟩)

/-- Everything issuing can do: the port goes on with its operation, has no word left, or issues its next word. -/
theorem State.issue_cases (s : State) :
    (∃ r, s.pend.get s.cur = some r ∧ s.issue = s.decoded r.word) ∨
      (s.pend.get s.cur = none ∧ s.prog.get s.cur = [] ∧ s.issue = .idle s) ∨
      (∃ w ws, s.pend.get s.cur = none ∧ s.prog.get s.cur = w :: ws ∧
        s.issue = (s.setProg (s.prog.set s.cur ws)).decoded w) := by
  unfold State.issue
  cases hp : s.pend.get s.cur with
  | some r => exact .inl ⟨r, rfl, rfl⟩
  | none =>
    cases hw : s.prog.get s.cur with
    | nil => exact .inr (.inl ⟨rfl, rfl, rfl⟩)
    | cons w ws => exact .inr (.inr ⟨w, ws, rfl, rfl, rfl⟩)

end Sys2Proof.Machine
end

