-- ==== Sys2Proof/Laws/Claims.lean ====
section
/-! SUPPORT. The small lemmas of the terms the claims use: a composite's bus phase, the bytes that reads of BUF give, and
what EE_DONE leaves. -/

namespace Sys2Proof.Machine

variable {i : Instr} {rest : List BusAnswer} {e : BusEvent} {u : I2cUnit} {st : Stage} {s t : State}

@[simp] theorem State.afterPhase_cur : (s.afterPhase i rest e u st).cur = s.cur := rfl
@[simp] theorem State.afterPhase_busIn : (s.afterPhase i rest e u st).busIn = rest := rfl
@[simp] theorem State.afterPhase_i2c : (s.afterPhase i rest e u st).i2c = u := rfl
@[simp] theorem State.afterPhase_logs :
    (s.afterPhase i rest e u st).logs = { s.logs with busLog := s.logs.busLog ++ [e] } := rfl
@[simp] theorem State.afterPhase_pend :
    (s.afterPhase i rest e u st).pend = s.pend.set .main (some ⟨encode i, st⟩) := rfl
@[simp] theorem State.afterPhase_res : (s.afterPhase i rest e u st).res = s.res := rfl
@[simp] theorem State.afterPhase_ip : (s.afterPhase i rest e u st).ip = s.ip := rfl
@[simp] theorem State.afterPhase_buf : (s.afterPhase i rest e u st).buf = s.buf := rfl
@[simp] theorem State.afterPhase_draws : (s.afterPhase i rest e u st).draws = s.draws := rfl

theorem State.afterPhase_stage (h : s.cur = .main) : (s.afterPhase i rest e u st).stage = st := by
  simp [State.stage, h, PerPort.get, PerPort.set]

@[simp] theorem readsFrom_nil (k : Nat) : readsFrom [] k = [] := rfl
@[simp] theorem readsFrom_some (b : Byte) (l : List (Option Byte)) (k : Nat) :
    readsFrom (some b :: l) k = b :: readsFrom l k := rfl
@[simp] theorem readsFrom_none (l : List (Option Byte)) (k : Nat) :
    readsFrom (none :: l) k = Config.freeByte k :: readsFrom l (k + 1) := rfl

/-- Written bytes are read as they are, whatever has been drawn. -/
theorem readsFrom_written (l : List Byte) (k : Nat) : readsFrom (l.map some) k = l := by
  induction l with
  | nil => rfl
  | cons b l ih => simp [ih]

theorem readsFrom_length (l : List (Option Byte)) (k : Nat) : (readsFrom l k).length = l.length := by
  induction l generalizing k with
  | nil => rfl
  | cons b l ih => cases b <;> simp [ih]

/-- EE_DONE leaves the array idle, and keeps the schedule. -/
theorem eeDone_idle (h : eeDone s = .next t) : t.ee.busy = false ∧ t.sched = s.sched := by
  unfold eeDone at h
  split at h
  · simp only [readByte, writeByte] at h
    repeat' split at h
    all_goals cases h
    all_goals exact ⟨rfl, by simp⟩
  · cases h; exact ⟨by simp_all, rfl⟩

end Sys2Proof.Machine
end

