-- ==== Sys2Proof/Laws/PerInstr.lean ====
section
/-! SUPPORT. What holds of every operation as syntax, one lemma per constructor. -/

namespace Sys2Proof.Laws.UnitOpBits

open Sys2Proof

/-- The UNIT and OP fields of an operation, word bits [31:24] (30_encoding.md rules R101 and R102). -/
def unitOp : Instr → BitVec 8
  | .nop => 0x01
  | .csrRead _ => 0x02
  | .ctrlReset => 0x03
  | .fifoPushWait _ _ => 0x11
  | .fifoPushDrop _ _ => 0x12
  | .fifoPop _ => 0x13
  | .fifoCount _ => 0x14
  | .rxIngress _ => 0x15
  | .txEgress => 0x16
  | .execRaise _ => 0x21
  | .execClear _ => 0x22
  | .execRead => 0x23
  | .alarmRaise _ => 0x24
  | .alarmClear => 0x25
  | .alarmRead => 0x26
  | .dispatchPeek => 0x27
  | .dispatchTake => 0x28
  | .i2cStart _ _ => 0x31
  | .i2cRestart _ _ => 0x32
  | .i2cWrite _ => 0x33
  | .i2cReadAck => 0x34
  | .i2cReadNack => 0x35
  | .i2cStop => 0x36
  | .i2cWriteReg _ _ _ => 0x37
  | .i2cReadReg _ _ _ => 0x38
  | .eeGet _ => 0x41
  | .eePut _ _ => 0x42
  | .eeWriteBlock _ _ => 0x43
  | .eeReadBlock _ _ => 0x44
  | .bufWrite _ _ => 0x51
  | .bufRead _ => 0x52

/-- Whatever its operands are, the word of an operation has the UNIT and OP of its row: no operand reaches above
bit 23 (R101). -/
def Statement (i : Instr) : Prop := field (encode i) 24 8 = unitOp i

theorem field_or (a b : Word) : field (a ||| b) 24 8 = field a 24 8 ||| field b 24 8 := by
  ext k hk; simp [field]

/-- An operand that ends at or below bit 23 puts nothing into UNIT and OP. -/
theorem field_place {n : Nat} (v : BitVec n) (lo : Nat) (h : lo + n ≤ 24) : field (place v lo) 24 8 = 0 := by
  ext k hk
  simp only [field, place, BitVec.getElem_extractLsb', BitVec.getLsbD_shiftLeft, BitVec.getLsbD_setWidth]
  rw [BitVec.getLsbD_of_ge v _ (by omega)]
  simp

theorem field_placeQ (q : QueueId) : field (placeQ q) 24 8 = 0 := by cases q <;> rfl

theorem field_placeRW (d : Dir) : field (placeRW d) 24 8 = 0 := by cases d <;> rfl

theorem nop : Statement .nop := rfl
theorem csrRead (j : Nat) : Statement (.csrRead j) := by
  simp only [Statement, encode, field_or, field_place _ 0 (by omega : 0 + 8 ≤ 24)]; rfl
theorem ctrlReset : Statement .ctrlReset := rfl
theorem fifoPushWait (q : QueueId) (d : Byte) : Statement (.fifoPushWait q d) := by
  simp only [Statement, encode, field_or, field_placeQ, field_place _ 0 (by omega : 0 + 8 ≤ 24)]; rfl
theorem fifoPushDrop (q : QueueId) (d : Byte) : Statement (.fifoPushDrop q d) := by
  simp only [Statement, encode, field_or, field_placeQ, field_place _ 0 (by omega : 0 + 8 ≤ 24)]; rfl
theorem fifoPop (q : QueueId) : Statement (.fifoPop q) := by
  simp only [Statement, encode, field_or, field_placeQ]; rfl
theorem fifoCount (q : QueueId) : Statement (.fifoCount q) := by
  simp only [Statement, encode, field_or, field_placeQ]; rfl
theorem rxIngress (d : Byte) : Statement (.rxIngress d) := by
  simp only [Statement, encode, field_or, field_place _ 0 (by omega : 0 + 8 ≤ 24)]; rfl
theorem txEgress : Statement .txEgress := rfl
theorem execRaise (m : BitVec 7) : Statement (.execRaise m) := by
  simp only [Statement, encode, field_or, field_place _ 0 (by omega : 0 + 7 ≤ 24)]; rfl
theorem execClear (m : BitVec 7) : Statement (.execClear m) := by
  simp only [Statement, encode, field_or, field_place _ 0 (by omega : 0 + 7 ≤ 24)]; rfl
theorem execRead : Statement .execRead := rfl
theorem alarmRaise (m : BitVec 6) : Statement (.alarmRaise m) := by
  simp only [Statement, encode, field_or, field_place _ 0 (by omega : 0 + 6 ≤ 24)]; rfl
theorem alarmClear : Statement .alarmClear := rfl
theorem alarmRead : Statement .alarmRead := rfl
theorem dispatchPeek : Statement .dispatchPeek := rfl
theorem dispatchTake : Statement .dispatchTake := rfl
theorem i2cStart (a : BitVec 7) (d : Dir) : Statement (.i2cStart a d) := by
  simp only [Statement, encode, field_or, field_placeRW, field_place _ 17 (by omega : 17 + 7 ≤ 24)]; rfl
theorem i2cRestart (a : BitVec 7) (d : Dir) : Statement (.i2cRestart a d) := by
  simp only [Statement, encode, field_or, field_placeRW, field_place _ 17 (by omega : 17 + 7 ≤ 24)]; rfl
theorem i2cWrite (d : Byte) : Statement (.i2cWrite d) := by
  simp only [Statement, encode, field_or, field_place _ 0 (by omega : 0 + 8 ≤ 24)]; rfl
theorem i2cReadAck : Statement .i2cReadAck := rfl
theorem i2cReadNack : Statement .i2cReadNack := rfl
theorem i2cStop : Statement .i2cStop := rfl
theorem i2cWriteReg (a : BitVec 7) (r : Byte) (n : Nat) : Statement (.i2cWriteReg a r n) := by
  simp only [Statement, encode, field_or, field_place _ 17 (by omega : 17 + 7 ≤ 24),
    field_place _ 8 (by omega : 8 + 8 ≤ 24), field_place _ 0 (by omega : 0 + 8 ≤ 24)]; rfl
theorem i2cReadReg (a : BitVec 7) (r : Byte) (n : Nat) : Statement (.i2cReadReg a r n) := by
  simp only [Statement, encode, field_or, field_place _ 17 (by omega : 17 + 7 ≤ 24),
    field_place _ 8 (by omega : 8 + 8 ≤ 24), field_place _ 0 (by omega : 0 + 8 ≤ 24)]; rfl
theorem eeGet (a : Nat) : Statement (.eeGet a) := by
  simp only [Statement, encode, field_or, field_place _ 8 (by omega : 8 + 16 ≤ 24)]; rfl
theorem eePut (a : Nat) (v : Byte) : Statement (.eePut a v) := by
  simp only [Statement, encode, field_or, field_place _ 8 (by omega : 8 + 16 ≤ 24),
    field_place _ 0 (by omega : 0 + 8 ≤ 24)]; rfl
theorem eeWriteBlock (a n : Nat) : Statement (.eeWriteBlock a n) := by
  simp only [Statement, encode, field_or, field_place _ 8 (by omega : 8 + 16 ≤ 24),
    field_place _ 0 (by omega : 0 + 8 ≤ 24)]; rfl
theorem eeReadBlock (a n : Nat) : Statement (.eeReadBlock a n) := by
  simp only [Statement, encode, field_or, field_place _ 8 (by omega : 8 + 16 ≤ 24),
    field_place _ 0 (by omega : 0 + 8 ≤ 24)]; rfl
theorem bufWrite (j : Nat) (d : Byte) : Statement (.bufWrite j d) := by
  simp only [Statement, encode, field_or, field_place _ 8 (by omega : 8 + 8 ≤ 24),
    field_place _ 0 (by omega : 0 + 8 ≤ 24)]; rfl
theorem bufRead (j : Nat) : Statement (.bufRead j) := by
  simp only [Statement, encode, field_or, field_place _ 8 (by omega : 8 + 8 ≤ 24)]; rfl

end Sys2Proof.Laws.UnitOpBits
end

