-- ==== Sys2Proof/Machine/Assembler.lean ====
section
/-! DEFINITION. The assembler's view of the command words (30_encoding.md rules R106, R114 and R115): a line is a
mnemonic and its operands, in order. The text of a line is outside the block, so a line is its parts here. -/

namespace Sys2Proof.Machine

/-- An operand of a line (R114): a number, `rx` or `tx`, `w` or `r`. -/
inductive AsmOperand where
  | num (n : Nat)
  | queue (q : QueueId)
  | rw (d : Dir)
  deriving DecidableEq, Repr

/-- The mnemonics of R114, then the pseudo-instructions of R115. -/
inductive Mnemonic where
  | nop
  | csrRead
  | ctrlReset
  | fifoPushWait
  | fifoPushDrop
  | fifoPop
  | fifoCount
  | rxIngress
  | txEgress
  | execRaise
  | execClear
  | execRead
  | alarmRaise
  | alarmClear
  | alarmRead
  | dispatchPeek
  | dispatchTake
  | i2cStart
  | i2cRestart
  | i2cWrite
  | i2cReadAck
  | i2cReadNack
  | i2cStop
  | i2cWriteReg
  | i2cReadReg
  | eeGet
  | eePut
  | eeWriteBlock
  | eeReadBlock
  | bufWrite
  | bufRead
  | execSetbit
  | execClrbit
  | alarmSetbit
  | unlock
  | i2cRegrd8
  | i2cRegwr8
  deriving DecidableEq, Repr

/-- The spelling of a mnemonic (R114, R115). -/
def Mnemonic.text : Mnemonic → String
  | .nop => "nop"
  | .csrRead => "csr.read"
  | .ctrlReset => "ctrl.reset"
  | .fifoPushWait => "fifo.push.wait"
  | .fifoPushDrop => "fifo.push.drop"
  | .fifoPop => "fifo.pop"
  | .fifoCount => "fifo.count"
  | .rxIngress => "rx.ingress"
  | .txEgress => "tx.egress"
  | .execRaise => "exec.raise"
  | .execClear => "exec.clear"
  | .execRead => "exec.read"
  | .alarmRaise => "alarm.raise"
  | .alarmClear => "alarm.clear"
  | .alarmRead => "alarm.read"
  | .dispatchPeek => "dispatch.peek"
  | .dispatchTake => "dispatch.take"
  | .i2cStart => "i2c.start"
  | .i2cRestart => "i2c.restart"
  | .i2cWrite => "i2c.write"
  | .i2cReadAck => "i2c.read.ack"
  | .i2cReadNack => "i2c.read.nack"
  | .i2cStop => "i2c.stop"
  | .i2cWriteReg => "i2c.wreg"
  | .i2cReadReg => "i2c.rreg"
  | .eeGet => "ee.get"
  | .eePut => "ee.put"
  | .eeWriteBlock => "ee.wblk"
  | .eeReadBlock => "ee.rblk"
  | .bufWrite => "buf.write"
  | .bufRead => "buf.read"
  | .execSetbit => "exec.setbit"
  | .execClrbit => "exec.clrbit"
  | .alarmSetbit => "alarm.setbit"
  | .unlock => "unlock"
  | .i2cRegrd8 => "i2c.regrd8"
  | .i2cRegwr8 => "i2c.regwr8"

/-- A number that fits an `n`-bit field; one that does not is an error of the assembler (R114). -/
def fit (n v : Nat) : Option (BitVec n) := if v < 2 ^ n then some (BitVec.ofNat n v) else none

/-- A number that fits a field of `n` bits, as the number it is. -/
def fitNat (n v : Nat) : Option Nat := if v < 2 ^ n then some v else none

/-- A bit number below `k` (R115). -/
def bitNumber (k v : Nat) : Option Nat := if v < k then some v else none

/-- The operations a line stands for (R114, R115), or an error of the assembler. -/
def assemble : Mnemonic → List AsmOperand → Option (List Instr)
  | .nop, [] => some [.nop]
  | .csrRead, [.num i] => (fitNat 8 i).bind fun i' => some [.csrRead i']
  | .ctrlReset, [] => some [.ctrlReset]
  | .fifoPushWait, [.queue q, .num d] => (fit 8 d).bind fun d' => some [.fifoPushWait q d']
  | .fifoPushDrop, [.queue q, .num d] => (fit 8 d).bind fun d' => some [.fifoPushDrop q d']
  | .fifoPop, [.queue q] => some [.fifoPop q]
  | .fifoCount, [.queue q] => some [.fifoCount q]
  | .rxIngress, [.num d] => (fit 8 d).bind fun d' => some [.rxIngress d']
  | .txEgress, [] => some [.txEgress]
  | .execRaise, [.num m] => (fit 7 m).bind fun m' => some [.execRaise m']
  | .execClear, [.num m] => (fit 7 m).bind fun m' => some [.execClear m']
  | .execRead, [] => some [.execRead]
  | .alarmRaise, [.num m] => (fit 6 m).bind fun m' => some [.alarmRaise m']
  | .alarmClear, [] => some [.alarmClear]
  | .alarmRead, [] => some [.alarmRead]
  | .dispatchPeek, [] => some [.dispatchPeek]
  | .dispatchTake, [] => some [.dispatchTake]
  | .i2cStart, [.num a, .rw rw] => (fit 7 a).bind fun a' => some [.i2cStart a' rw]
  | .i2cRestart, [.num a, .rw rw] => (fit 7 a).bind fun a' => some [.i2cRestart a' rw]
  | .i2cWrite, [.num d] => (fit 8 d).bind fun d' => some [.i2cWrite d']
  | .i2cReadAck, [] => some [.i2cReadAck]
  | .i2cReadNack, [] => some [.i2cReadNack]
  | .i2cStop, [] => some [.i2cStop]
  | .i2cWriteReg, [.num a, .num reg, .num n] => (fit 7 a).bind fun a' => (fit 8 reg).bind fun reg' => (fitNat 8 n).bind fun n' => some [.i2cWriteReg a' reg' n']
  | .i2cReadReg, [.num a, .num reg, .num n] => (fit 7 a).bind fun a' => (fit 8 reg).bind fun reg' => (fitNat 8 n).bind fun n' => some [.i2cReadReg a' reg' n']
  | .eeGet, [.num a] => (fitNat 16 a).bind fun a' => some [.eeGet a']
  | .eePut, [.num a, .num d] => (fitNat 16 a).bind fun a' => (fit 8 d).bind fun d' => some [.eePut a' d']
  | .eeWriteBlock, [.num a, .num len] => (fitNat 16 a).bind fun a' => (fitNat 8 len).bind fun len' => some [.eeWriteBlock a' len']
  | .eeReadBlock, [.num a, .num len] => (fitNat 16 a).bind fun a' => (fitNat 8 len).bind fun len' => some [.eeReadBlock a' len']
  | .bufWrite, [.num i, .num d] => (fitNat 8 i).bind fun i' => (fit 8 d).bind fun d' => some [.bufWrite i' d']
  | .bufRead, [.num i] => (fitNat 8 i).bind fun i' => some [.bufRead i']
  | .execSetbit, [.num k] => (bitNumber 7 k).bind fun k' => some [.execRaise (1#7 <<< k')]
  | .execClrbit, [.num k] => (bitNumber 7 k).bind fun k' => some [.execClear (1#7 <<< k')]
  | .alarmSetbit, [.num k] => (bitNumber 6 k).bind fun k' => some [.alarmRaise (1#6 <<< k')]
  | .unlock, [] => some [.alarmClear]
  | .i2cRegrd8, [.num a, .num reg] =>
    (fit 7 a).bind fun a' => (fit 8 reg).bind fun reg' => some [.i2cReadReg a' reg' 1]
  | .i2cRegwr8, [.num a, .num reg, .num v] =>
    (fit 7 a).bind fun a' => (fit 8 reg).bind fun reg' => (fit 8 v).bind fun v' =>
      some [.bufWrite 0 v', .i2cWriteReg a' reg' 1]
  | _, _ => none

/-- A line of a disassembly: an operation, or `.word` and the word for one that is ILLEGAL (R114). -/
inductive AsmLine where
  | op (m : Mnemonic) (args : List AsmOperand)
  | word (w : Word)
  deriving DecidableEq, Repr

/-- The line of an operation (R114). -/
def asmLine : Instr → AsmLine
  | .nop => .op .nop []
  | .csrRead i => .op .csrRead [.num i]
  | .ctrlReset => .op .ctrlReset []
  | .fifoPushWait q d => .op .fifoPushWait [.queue q, .num d.toNat]
  | .fifoPushDrop q d => .op .fifoPushDrop [.queue q, .num d.toNat]
  | .fifoPop q => .op .fifoPop [.queue q]
  | .fifoCount q => .op .fifoCount [.queue q]
  | .rxIngress d => .op .rxIngress [.num d.toNat]
  | .txEgress => .op .txEgress []
  | .execRaise m => .op .execRaise [.num m.toNat]
  | .execClear m => .op .execClear [.num m.toNat]
  | .execRead => .op .execRead []
  | .alarmRaise m => .op .alarmRaise [.num m.toNat]
  | .alarmClear => .op .alarmClear []
  | .alarmRead => .op .alarmRead []
  | .dispatchPeek => .op .dispatchPeek []
  | .dispatchTake => .op .dispatchTake []
  | .i2cStart a rw => .op .i2cStart [.num a.toNat, .rw rw]
  | .i2cRestart a rw => .op .i2cRestart [.num a.toNat, .rw rw]
  | .i2cWrite d => .op .i2cWrite [.num d.toNat]
  | .i2cReadAck => .op .i2cReadAck []
  | .i2cReadNack => .op .i2cReadNack []
  | .i2cStop => .op .i2cStop []
  | .i2cWriteReg a reg n => .op .i2cWriteReg [.num a.toNat, .num reg.toNat, .num n]
  | .i2cReadReg a reg n => .op .i2cReadReg [.num a.toNat, .num reg.toNat, .num n]
  | .eeGet a => .op .eeGet [.num a]
  | .eePut a d => .op .eePut [.num a, .num d.toNat]
  | .eeWriteBlock a len => .op .eeWriteBlock [.num a, .num len]
  | .eeReadBlock a len => .op .eeReadBlock [.num a, .num len]
  | .bufWrite i d => .op .bufWrite [.num i, .num d.toNat]
  | .bufRead i => .op .bufRead [.num i]

/-- The disassembly of a word (R106, R114). -/
def disassemble (w : Word) : AsmLine :=
  match decode w with
  | some i => asmLine i
  | none => .word w

end Sys2Proof.Machine
end

