-- ==== Sys2Proof/Tests/Slice0.lean ====
section
/-! SUPPORT. The author's own tests. Expected results are those of 30_encoding.md rules R102, R103, R114 and R116 and of
95_test_vectors.md, whose vector each test names. The last part gives a witness for the hypotheses of every
statement of Obligations.lean. -/

open Sys2Proof Sys2Proof.Machine

namespace Sys2Proof.Tests

/-! ## WellFormed refuses each operand that does not fit its field (R103, R114) -/

theorem test_wf_csr_read : WellFormed (.csrRead 255) = true ∧ WellFormed (.csrRead 256) = false := by decide
theorem test_wf_write_reg :
    WellFormed (.i2cWriteReg 0 0 255) = true ∧ WellFormed (.i2cWriteReg 0 0 256) = false := by decide
theorem test_wf_read_reg :
    WellFormed (.i2cReadReg 0 0 255) = true ∧ WellFormed (.i2cReadReg 0 0 256) = false := by decide
theorem test_wf_ee_get : WellFormed (.eeGet 65535) = true ∧ WellFormed (.eeGet 65536) = false := by decide
theorem test_wf_ee_put : WellFormed (.eePut 65535 0) = true ∧ WellFormed (.eePut 65536 0) = false := by decide
theorem test_wf_write_block_addr : WellFormed (.eeWriteBlock 65536 0) = false := by decide
theorem test_wf_write_block_len : WellFormed (.eeWriteBlock 0 256) = false := by decide
theorem test_wf_read_block_addr : WellFormed (.eeReadBlock 65536 0) = false := by decide
theorem test_wf_read_block_len : WellFormed (.eeReadBlock 0 256) = false := by decide
theorem test_wf_buf_write : WellFormed (.bufWrite 255 0) = true ∧ WellFormed (.bufWrite 256 0) = false := by decide
theorem test_wf_buf_read : WellFormed (.bufRead 255) = true ∧ WellFormed (.bufRead 256) = false := by decide

/-! ## Decoding: a word of every row, written out from its format (R101, R103) -/

theorem test_decode_nop : decode 0b0000_0001_000000000000000000000000 = some .nop := by decide
theorem test_decode_csr_read : decode 0b0000_0010_0000000000000000_00010000 = some (.csrRead 16) := by decide
theorem test_decode_ctrl_reset : decode 0b0000_0011_000000000000000000000000 = some .ctrlReset := by decide
theorem test_decode_push_wait : decode 0b0001_0001_1_000000000000000_01000001 = some (.fifoPushWait .tx 0x41) := by
  decide
theorem test_decode_push_drop : decode 0b0001_0010_0_000000000000000_01010101 = some (.fifoPushDrop .rx 0x55) := by
  decide
theorem test_decode_pop : decode 0b0001_0011_1_00000000000000000000000 = some (.fifoPop .tx) := by decide
theorem test_decode_count : decode 0b0001_0100_0_00000000000000000000000 = some (.fifoCount .rx) := by decide
theorem test_decode_ingress : decode 0b0001_0101_0000000000000000_00111111 = some (.rxIngress 0x3F) := by decide
theorem test_decode_egress : decode 0b0001_0110_1_00000000000000000000000 = some .txEgress := by decide
theorem test_decode_exec_raise : decode 0b0010_0001_00000000000000000_0010000 = some (.execRaise 0x10) := by decide
theorem test_decode_exec_clear : decode 0b0010_0010_00000000000000000_1000001 = some (.execClear 0x41) := by decide
theorem test_decode_exec_read : decode 0b0010_0011_000000000000000000000000 = some .execRead := by decide
theorem test_decode_alarm_raise : decode 0b0010_0100_000000000000000000_100010 = some (.alarmRaise 0x22) := by decide
theorem test_decode_alarm_clear : decode 0b0010_0101_000000000000000000000000 = some .alarmClear := by decide
theorem test_decode_alarm_read : decode 0b0010_0110_000000000000000000000000 = some .alarmRead := by decide
theorem test_decode_peek : decode 0b0010_0111_000000000000000000000000 = some .dispatchPeek := by decide
theorem test_decode_take : decode 0b0010_1000_000000000000000000000000 = some .dispatchTake := by decide
theorem test_decode_start : decode 0b0011_0001_0101001_0_0000000000000000 = some (.i2cStart 0x29 .write) := by decide
theorem test_decode_restart : decode 0b0011_0010_0101001_1_0000000000000000 = some (.i2cRestart 0x29 .read) := by
  decide
theorem test_decode_write : decode 0b0011_0011_0000000000000000_11000000 = some (.i2cWrite 0xC0) := by decide
theorem test_decode_read_ack : decode 0b0011_0100_000000000000000000000000 = some .i2cReadAck := by decide
theorem test_decode_read_nack : decode 0b0011_0101_000000000000000000000000 = some .i2cReadNack := by decide
theorem test_decode_stop : decode 0b0011_0110_000000000000000000000000 = some .i2cStop := by decide
theorem test_decode_write_reg :
    decode 0b0011_0111_0101001_0_10000000_00000010 = some (.i2cWriteReg 0x29 0x80 2) := by decide
theorem test_decode_read_reg :
    decode 0b0011_1000_0101001_0_11000000_00000010 = some (.i2cReadReg 0x29 0xC0 2) := by decide
theorem test_decode_get : decode 0b0100_0001_0000000001100100_00000000 = some (.eeGet 100) := by decide
theorem test_decode_put : decode 0b0100_0010_0000000000000111_00001111 = some (.eePut 7 0x0F) := by decide
theorem test_decode_write_block : decode 0b0100_0011_0000000001100100_00000011 = some (.eeWriteBlock 100 3) := by
  decide
theorem test_decode_read_block : decode 0b0100_0100_0000000001100100_00000011 = some (.eeReadBlock 100 3) := by
  decide
theorem test_decode_buf_write : decode 0b0101_0001_00000000_00000010_00000011 = some (.bufWrite 2 0x03) := by decide
theorem test_decode_buf_read : decode 0b0101_0010_00000000_00000010_00000000 = some (.bufRead 2) := by decide

/-- V-DEC-1 to V-DEC-5, and RX_INGRESS with bit 23 set (R112): rejected by name. -/
theorem test_decode_rejects :
    decodeOrReason 0x00000000 = .error .unassignedOp ∧ decodeOrReason 0x60000000 = .error .unassignedUnit ∧
      decodeOrReason 0x21000080 = .error .reservedBits ∧ decodeOrReason 0x37530001 = .error .reservedBits ∧
      decodeOrReason 0x16000000 = .error .reservedBits ∧ decodeOrReason 0x15800041 = .error .reservedBits :=
  ⟨rfl, rfl, rfl, rfl, rfl, rfl⟩

theorem test_table_word :
    decodeTableWord 32 0x11800041 = some (.fifoPushWait .tx 0x41) ∧ decodeTableWord 32 0x21000080 = none := by decide

/-- R106, R114, R115. -/
theorem test_assembler :
    assemble .i2cReadReg [.num 0x29, .num 0, .num 2] = some [.i2cReadReg 0x29 0 2] ∧
      assemble .execSetbit [.num 7] = none ∧ assemble .execRaise [.num 0x80] = none ∧
      assemble .i2cRegwr8 [.num 0x29, .num 0x80, .num 1] = some [.bufWrite 0 1, .i2cWriteReg 0x29 0x80 1] ∧
      disassemble 0x110000DD = .op .fifoPushWait [.queue .rx, .num 0xDD] ∧
      disassemble 0x60000000 = .word 0x60000000 := by
  decide

/-! ## One transition of each operation -/

/-- The state with the given issuing port. -/
def on (p : Port) (s : State) : State := { s with cur := p }

/-- The reset state with other queues, flow-control state and flags. -/
def withFifo (c : Params) (rx tx : Queue) (ovf : Bool) (fc : FcState) : State :=
  { State.por c with fifo := ⟨rx, tx, ovf, fc⟩ }

/-- The reset state with other flags. -/
def withFlags (e : BitVec 7) (a : BitVec 6) (p : Bool) : State := { State.reset with flag := ⟨e, a, p⟩ }

/-- The reset state with another I2C unit and answers to come. -/
def withBus (u : I2cUnit) (l : List BusAnswer) : State := { State.reset with i2c := u, busIn := l }

/-- The reset state with other EEPROM contents. -/
def withEe (m : Memory) : State := { State.reset with ee := ⟨m, false, ⟨0, .none, 0⟩⟩ }

/-- MAIN's operation `i` is in progress at stage `st`. -/
def at' (i : Instr) (st : Stage) (s : State) : State := { s with pend := s.pend.set .main (some ⟨encode i, st⟩) }

def four : Params := { Config.defaults with cRx := 4, cTx := 4, rxHigh := 3 }
def two : Params := { Config.defaults with cRx := 2, cTx := 2, rxHigh := 1, rxLow := 1 }
def empty : Queue := ⟨[], 0, 0⟩
/-- A queue of capacity 2 that is full: one byte, 0x41, in slot 0. -/
def one : Queue := ⟨[(0, 0x41)], 1, 0⟩

/-- The next state has the property. -/
def gives (i : Instr) (s : State) (p : State → Bool) : Bool :=
  match exec i s with
  | .next t => p t
  | .fault _ => false
  | .refused _ => false

/-- The property holds after one step. -/
def stepGives (s : State) (p : State → Bool) : Bool :=
  match step s with
  | .next t => p t
  | .fault _ => false
  | .refused _ => false

/-- V-CTRL-1 -/
theorem test_nop : gives .nop State.reset (fun t => t.res.main == ⟨0, 0⟩ && t.pend == .const none) = true := by decide
/-- V-CTRL-6 and V-CTRL-2 -/
theorem test_csr_read_parameters :
    gives (.csrRead 0x0E) State.reset (fun t => t.res.main == ⟨0, 0x00FF⟩) = true ∧
      gives (.csrRead 0x0C) (on .ext State.reset) (fun t => t.res.ext == ⟨0, 0x0008⟩) = true := by decide
/-- V-CTRL-4 and V-DEC-12 -/
theorem test_csr_read_status :
    gives (.csrRead 0x07) (withFifo four ⟨[], 3, 0⟩ empty true .xonSent) (fun t => t.res.main == ⟨0, 0x0011⟩) = true ∧
      gives (.csrRead 0x11) (on .txi State.reset) (fun t => t.res.txi == ⟨0x31, 0⟩) = true := by decide
/-- V-CTRL-7 -/
theorem test_ctrl_reset :
    gives .ctrlReset { withFifo Config.defaults ⟨[(4, 9)], 5, 2⟩ ⟨[], 1, 0⟩ true .sendXoff with flag := ⟨0x11, 1, true⟩ }
      (fun t => t.fifo == ⟨⟨[(4, 9)], 0, 0⟩, ⟨[], 0, 0⟩, false, .xonSent⟩ && t.flag == ⟨0, 0, false⟩) = true := by decide
/-- V-DEC-8: on RXI it is refused. -/
theorem test_ctrl_reset_refused : gives .ctrlReset (on .rxi State.reset) (fun t => t.res.rxi == ⟨0x3F, 0⟩) = true := by
  decide
/-- V-FIFO-1: the escape applies only while TX is full. -/
theorem test_push_wait :
    gives (.fifoPushWait .tx 0x41) { State.reset with flag := ⟨0x10, 0, false⟩ }
      (fun t => t.res.main == ⟨0, 0⟩ && t.fifo.tx == ⟨[(0, 0x41)], 1, 0⟩) = true := by decide
/-- V-FIFO-18 and V-FIFO-2: on a full TX it holds, and with a reset pending it is aborted. -/
theorem test_push_wait_full :
    gives (.fifoPushWait .tx 0x41) (withFifo two empty one false .xonSent)
        (fun t => t.pend.main == some ⟨0x11800041, .start⟩ && t.fifo.tx == one) = true ∧
      gives (.fifoPushWait .tx 0x42) { withFifo two empty one false .xonSent with flag := ⟨0x10, 0, false⟩ }
        (fun t => t.res.main == ⟨0x03, 0⟩ && t.fifo.tx == one) = true := by decide
/-- V-FIFO-5: the head pointer wraps at the capacity. -/
theorem test_push_drop_wraps :
    gives (.fifoPushDrop .tx 0x42) (withFifo four empty ⟨[], 3, 1⟩ false .xonSent)
      (fun t => t.res.main == ⟨0, 0⟩ && t.fifo.tx == ⟨[(3, 0x42)], 0, 1⟩) = true := by decide
/-- V-FIFO-9: a drop on TX leaves RX_OVF; the example of R122: one on RX sets it. -/
theorem test_push_drop_full :
    gives (.fifoPushDrop .tx 0x43) (withFifo two empty one false .xonSent)
        (fun t => t.res.main == ⟨0x02, 0⟩ && !t.fifo.rxOvf) = true ∧
      gives (.fifoPushDrop .rx 0x55) (on .rxi (withFifo two one empty false .xonSent))
        (fun t => t.res.rxi == ⟨0x02, 0⟩ && t.fifo.rxOvf) = true := by decide
/-- V-FIFO-3: a data byte 0xFF has status OK. -/
theorem test_pop :
    gives (.fifoPop .rx) (withFifo four ⟨[(3, 0xFF)], 0, 3⟩ empty false .xonSent)
      (fun t => t.res.main == ⟨0, 0x00FF⟩ && t.fifo.rx.tail == 0) = true := by decide
/-- V-FIFO-16: the low-water check runs on an empty pop. -/
theorem test_pop_empty :
    gives (.fifoPop .rx) (withFifo { four with fcEnable := true } empty empty false .xoffSent)
      (fun t => t.res.main == ⟨0x01, 0x00FF⟩ && t.fifo.fc == .sendXon) = true := by decide
/-- V-FIFO-6 -/
theorem test_count :
    gives (.fifoCount .rx) (on .ext (withFifo four ⟨[], 1, 3⟩ empty false .xonSent))
      (fun t => t.res.ext == ⟨0, 0x0002⟩) = true := by decide
/-- V-FIFO-7: a command byte is intercepted although RX is full. -/
theorem test_ingress_command :
    gives (.rxIngress 0x18) (on .rxi (withFifo two one empty false .xonSent))
      (fun t => t.res.rxi == ⟨0x04, 0x0018⟩ && t.flag.exec == 0x10 && !t.fifo.rxOvf) = true := by decide
/-- V-FIFO-14: the store that reaches RX_HIGH schedules XOFF. -/
theorem test_ingress_high_water :
    gives (.rxIngress 0x30) (on .rxi (withFifo { Config.defaults with fcEnable := true } ⟨[], 5, 0⟩ empty false .xonSent))
      (fun t => t.res.rxi == ⟨0, 0x0030⟩ && t.fifo.fc == .sendXoff) = true := by decide
/-- V-FIFO-12: a pending XON goes ahead of data. -/
theorem test_egress_flow_control :
    gives .txEgress (on .txi (withFifo { two with fcEnable := true } empty one false .sendXon))
      (fun t => t.res.txi == ⟨0, 0x0111⟩ && t.logs.txLine == [0x11] && t.fifo.tx == one) = true := by decide
/-- V-FIFO-11: a data byte equal to XON_CHAR is data. -/
theorem test_egress_data :
    gives .txEgress (on .txi (withFifo two empty ⟨[(0, 0x11)], 1, 0⟩ false .xonSent))
      (fun t => t.res.txi == ⟨0, 0x0011⟩ && t.logs.txLine == [0x11]) = true := by decide
/-- The example of R151 -/
theorem test_exec_raise :
    gives (.execRaise 0x08) (withFlags 0x01 0 false) (fun t => t.flag.exec == 0x09 && t.res.main == ⟨0, 0x0001⟩) = true := by
  decide
/-- The example of R152 -/
theorem test_exec_clear :
    gives (.execClear 0x01) (withFlags 0x09 0 false) (fun t => t.flag.exec == 0x08 && t.res.main == ⟨0, 0x0009⟩) = true := by
  decide
/-- The example of R153 -/
theorem test_exec_read : gives .execRead (withFlags 0x10 0 false) (fun t => t.res.main == ⟨0, 0x0010⟩) = true := by decide
/-- V-FLAG-5 -/
theorem test_alarm_raise :
    gives (.alarmRaise 0x10) (on .ext State.reset) (fun t => t.flag == ⟨0, 0x10, true⟩ && t.res.ext == ⟨0, 0⟩) = true := by
  decide
/-- V-FLAG-6 -/
theorem test_alarm_raise_nothing : gives (.alarmRaise 0) (on .ext State.reset) (fun t => !t.flag.pending) = true := by
  decide
/-- V-FLAG-8 -/
theorem test_alarm_clear :
    gives .alarmClear (withFlags 0 0x05 true) (fun t => t.flag == ⟨0, 0, false⟩ && t.res.main == ⟨0, 0x0005⟩) = true := by
  decide
/-- V-FLAG-7 -/
theorem test_alarm_read :
    gives .alarmRead (on .txi (withFlags 0 0x05 true)) (fun t => t.res.txi == ⟨0, 0x0105⟩) = true := by decide
/-- V-FLAG-9 and V-FLAG-10 -/
theorem test_peek :
    gives .dispatchPeek (on .ext (withFlags 0x41 0 false)) (fun t => t.res.ext == ⟨0, 0x0004⟩) = true ∧
      gives .dispatchPeek (withFlags 0x10 0x02 true) (fun t => t.res.main == ⟨0, 0x0001⟩) = true := by decide
/-- V-FLAG-11, takes 2 and 4 -/
theorem test_take :
    gives .dispatchTake (withFlags 0x6F 0x05 true)
        (fun t => t.res.main == ⟨0, 0x0502⟩ && t.flag == ⟨0x6F, 0x05, false⟩) = true ∧
      gives .dispatchTake (withFlags 0x4F 0x05 false)
        (fun t => t.res.main == ⟨0, 0x0004⟩ && t.flag == ⟨0x0F, 0x05, false⟩) = true := by decide
/-- V-I2C-5: a start that loses arbitration sends no address byte. -/
theorem test_start_lost :
    gives (.i2cStart 0x29 .write) (withBus ⟨.idle, .write, false, 0, .none⟩ [.lost])
      (fun t => t.res.main == ⟨0x10, 0x000B⟩ && t.logs.busLog == [.sf .arbLost] && t.i2c.nak) = true := by decide
/-- V-I2C-1, its second transition -/
theorem test_start_addr :
    gives (.i2cStart 0x29 .write)
      (at' (.i2cStart 0x29 .write) .addr (withBus ⟨.started, .write, false, 0x29, .start⟩ [.ack]))
      (fun t => t.res.main == ⟨0, 0x0003⟩ && t.logs.busLog == [.a 0x52 .ack] && t.i2c.phase == .addressSent) = true := by
  decide
/-- A state where the two bus phases of a start are two transitions (R185, R288). -/
def split (s : State) : State := { s with cfg := { s.cfg with startAtomic := false } }
/-- Transition 1 of R185 in two transitions: from Idle a plain S; in an open transaction Sr. -/
theorem test_restart :
    gives (.i2cRestart 0x29 .read) (split (withBus ⟨.idle, .write, false, 0, .none⟩ [.ok]))
        (fun t => t.logs.busLog == [.s] && t.i2c.lastBs == .start) = true ∧
      gives (.i2cRestart 0x29 .read) (split (withBus ⟨.dataPhase, .write, false, 0x29, .dataWAck⟩ [.ok]))
        (fun t => t.logs.busLog == [.sr] && t.i2c.lastBs == .repStart) = true := by decide
/-- V-I2C-7 in one transition (R79): from Idle a plain S. -/
theorem test_restart_in_one_transition :
    gives (.i2cRestart 0x29 .read) (withBus ⟨.idle, .write, false, 0, .none⟩ [.ok, .ack])
      (fun t => t.res.main == ⟨0, 0x0005⟩ && t.logs.busLog == [.s, .a 0x53 .ack] && t.i2c.dir == .read) = true := by decide
/-- The example of R175 -/
theorem test_bus_write :
    gives (.i2cWrite 0xC0) (withBus ⟨.addressSent, .write, false, 0x29, .addrWAck⟩ [.nack])
      (fun t => t.res.main == ⟨0x10, 0x0008⟩ && t.i2c == ⟨.dataPhase, .write, true, 0x29, .dataWNack⟩) = true := by decide
/-- V-I2C-3 -/
theorem test_bus_write_refused :
    gives (.i2cWrite 0x00) (withBus ⟨.addressSent, .write, true, 0x29, .addrWNack⟩ [.ack])
      (fun t => t.res.main == ⟨0x11, 0⟩ && t.busIn == [.ack] && t.logs.busLog == []) = true := by decide
/-- V-I2C-13, its first read -/
theorem test_read_ack :
    gives .i2cReadAck (withBus ⟨.addressSent, .read, false, 0x7F, .addrRAck⟩ [.byte 0xA1])
      (fun t => t.res.main == ⟨0, 0x00A1⟩ && t.i2c.phase == .dataPhase && !t.i2c.nak) = true := by decide
/-- V-I2C-13, its second read -/
theorem test_read_nack :
    gives .i2cReadNack (withBus ⟨.dataPhase, .read, false, 0x7F, .dataRAck⟩ [.byte 0xA2])
      (fun t => t.res.main == ⟨0, 0x00A2⟩ && t.i2c.nak && t.i2c.lastBs == .dataRNack) = true := by decide
/-- V-I2C-4 and V-I2C-14 -/
theorem test_stop :
    gives .i2cStop (withBus ⟨.addressSent, .write, true, 0x29, .addrWNack⟩ [.done])
        (fun t => t.res.main == ⟨0, 0x000D⟩ && t.i2c == ⟨.stopped, .write, false, 0x29, .stop⟩) = true ∧
      gives .i2cStop State.reset (fun t => t.res.main == ⟨0, 0⟩ && t.logs.busLog == []) = true := by decide
/-- V-L1-8, third row: the data byte that is not acknowledged is BUF[1], and the stop comes next. -/
theorem test_write_reg_data :
    gives (.i2cWriteReg 0x29 0x80 2)
      (at' (.i2cWriteReg 0x29 0x80 2) (.data 1)
        { withBus ⟨.dataPhase, .write, false, 0x29, .dataWAck⟩ [.nack, .done] with buf := [(0, 0x01), (1, 0x02)] })
      (fun t => t.logs.busLog == [.w 0x02 .nack] && t.pend.main == some ⟨0x37528002, .abort⟩) = true := by decide
/-- V-I2C-11 -/
theorem test_write_reg_refused :
    gives (.i2cWriteReg 0x29 0x80 1) (withBus ⟨.addressSent, .write, false, 0x29, .addrWAck⟩ [.ack])
      (fun t => t.res.main == ⟨0x11, 0⟩) = true := by decide
/-- V-I2C-8, its last read: NACK, and the byte goes to BUF[1]. -/
theorem test_read_reg_data :
    gives (.i2cReadReg 0x29 0x00 2)
      (at' (.i2cReadReg 0x29 0x00 2) (.data 1)
        { withBus ⟨.dataPhase, .read, false, 0x29, .dataRAck⟩ [.byte 0x34] with buf := [(0, 0x12)] })
      (fun t => t.logs.busLog == [.r 0x34 .nack] && t.buf == [(0, 0x12), (1, 0x34)]) = true := by decide
/-- V-L1-8, fourth row, its stop: BUF[0 .. 1] is zeroed. -/
theorem test_read_reg_fails :
    gives (.i2cReadReg 0x29 0xC0 2)
      (at' (.i2cReadReg 0x29 0xC0 2) .abort
        { withBus ⟨.addressSent, .write, true, 0x29, .addrWNack⟩ [.done] with buf := [(0, 0x01), (2, 0x07)] })
      (fun t => t.res.main == ⟨0x10, 0⟩ && t.buf == [(0, 0), (1, 0), (2, 0x07)]) = true := by decide
/-- The example of R203, and V-DEC-11 -/
theorem test_get :
    gives (.eeGet 100) (withEe [(100, 0x01)]) (fun t => t.res.main == ⟨0, 0x0001⟩) = true ∧
      gives (.eeGet 256) { State.reset with ee := ⟨[], true, ⟨5, .writeOnly, 1⟩⟩ }
        (fun t => t.res.main == ⟨0x30, 0⟩) = true := by decide
/-- The example of R204 -/
theorem test_put :
    gives (.eePut 7 0x0F) State.reset
      (fun t => t.res.main == ⟨0, 0x0003⟩ && t.ee == ⟨[], true, ⟨7, .writeOnly, 0x0F⟩⟩ &&
        t.logs.eeLog == [⟨7, .writeOnly, 0xFF, 0x0F⟩]) = true := by decide
/-- V-EE-4 and V-EE-6 -/
theorem test_put_modes :
    gives (.eePut 5 0x0F) (withEe [(5, 0x0F)]) (fun t => t.res.main == ⟨0, 0⟩ && !t.ee.busy) = true ∧
      gives (.eePut 5 0xF0) (withEe [(5, 0x0F)]) (fun t => t.res.main == ⟨0, 0x0001⟩ && t.ee.busy) = true := by decide
/-- V-EE-8: the step of the array ends a WRITE_ONLY cycle. -/
theorem test_ee_done :
    stepGives { State.reset with ee := ⟨[(5, 0x3C)], true, ⟨5, .writeOnly, 0x0C⟩⟩, sched := [.eea] }
      (fun t => t.ee == ⟨[(5, 0x0C)], false, ⟨0, .none, 0⟩⟩) = true := by decide
/-- V-L1-6: the third byte of the record, summed by rotate and add. -/
theorem test_write_block :
    gives (.eeWriteBlock 0 4)
      (at' (.eeWriteBlock 0 4) (.block 2 0x6A) { State.reset with buf := [(2, 0xBE)] })
      (fun t => t.pend.main == some ⟨0x43000004, .block 3 0x92⟩ && t.ee.pend == ⟨2, .writeOnly, 0xBE⟩) = true := by decide
/-- V-EE-2 -/
theorem test_write_block_range : gives (.eeWriteBlock 253 3) State.reset (fun t => t.res.main == ⟨0x30, 0⟩) = true := by
  decide
/-- V-EE-11 -/
theorem test_read_block_trailer :
    gives (.eeReadBlock 10 0) (withEe [(10, 0x00)]) (fun t => t.res.main == ⟨0, 0⟩) = true ∧
      gives (.eeReadBlock 10 0) State.reset (fun t => t.res.main == ⟨0x20, 0xFF00⟩) = true := by decide
/-- P3, ip 6: the second byte of the corrupted record goes to BUF[1] and into the sum. -/
theorem test_read_block_data :
    gives (.eeReadBlock 100 3) (at' (.eeReadBlock 100 3) (.block 1 0x01) State.reset)
      (fun t => t.buf == [(1, 0xFF)] && t.pend.main == some ⟨0x44006403, .block 2 0x01⟩) = true := by decide
/-- V-CTRL-8 -/
theorem test_buf_write :
    gives (.bufWrite 255 0xAA) State.reset (fun t => t.res.main == ⟨0, 0⟩ && t.buf == [(255, 0xAA)]) = true := by decide
/-- V-CTRL-8 -/
theorem test_buf_read :
    gives (.bufRead 255) { State.reset with buf := [(255, 0xAA)] } (fun t => t.res.main == ⟨0, 0x00AA⟩) = true := by decide
/-- V-CTRL-9: whatever the byte is, the operation ends with OK and one draw is counted. -/
theorem test_buf_read_unwritten :
    gives (.bufRead 9) State.reset (fun t => t.res.main.status == 0 && t.draws == 1) = true := by decide

/-! ## Steps -/

/-- A placed word is issued and run by the next step, on a port that may issue it. -/
theorem test_fetch_runs :
    stepGives (State.reset.withFetchWord 32 0x24000002) (fun t => t.flag == ⟨0, 0x02, true⟩ && t.ip.main == 1) = true ∧
      stepGives (State.reset.withFetchWord 32 0x16800000) (fun t => t.res.txi == ⟨0x01, 0x00FF⟩) = true := by decide
/-- V-DEC-1: a word that is ILLEGAL ends with ERR_ILLEGAL. -/
theorem test_fetch_illegal :
    stepGives (State.reset.withFetchWord 32 0x00000000) (fun t => t.res.main == ⟨0x3F, 0⟩ && t.ip.main == 1) = true := by
  decide
/-- V-DEC-7: TXI alone pops TX, so on MAIN the word is refused. -/
theorem test_step_port :
    stepGives { State.reset with prog := ⟨[0x13800000], [], [], []⟩, sched := [.port .main] }
      (fun t => t.res.main == ⟨0x3F, 0⟩ && t.prog.main == []) = true := by decide
/-- A power cycle keeps EEMEM (R72) and no other element, and the draws go on (R53). -/
theorem test_power_cycle :
    (State.powerCycle { withEe [(3, 7)] with flag := ⟨1, 1, true⟩, draws := 3 }).map (fun t => (t.ee.mem, t.flag, t.draws)) =
      some ([(3, 7)], (⟨0, 0, false⟩ : FlagUnit), 3) := by decide
/-- A full TX with no pop and no reset is stuck for MAIN (R275, R280); EEA is enabled while a cycle is in flight. -/
theorem test_enabled :
    State.enabled { withFifo two empty one false .xonSent with prog := ⟨[0x11800041], [], [], []⟩ } (.port .main) = false ∧
      State.enabled { State.reset with ee := ⟨[], true, ⟨5, .writeOnly, 1⟩⟩ } .eea = true := by decide

/-! ## Witnesses: for each statement, states and operands that meet its hypotheses, clause by clause -/

/-- The parameters are legal, as a check. -/
def paramsCheck (c : Params) : Bool :=
  decide ((2 ≤ c.cRx ∧ c.cRx ≤ 256) ∧ (2 ≤ c.cTx ∧ c.cTx ≤ 256) ∧ (1 ≤ c.rxLow ∧ c.rxLow ≤ c.rxHigh ∧ c.rxHigh ≤ c.cRx - 1) ∧
    (1 ≤ c.eeSize ∧ c.eeSize ≤ 65536) ∧ Mem.Wf Space.eemem.unlisted c.eeSize c.eeInit ∧ (c.rtTable.map Prod.fst).Nodup)

theorem paramsOk_of_check {c : Params} (h : paramsCheck c = true) : ParamsOk c := by
  obtain ⟨h1, h2, h3, h4, h5, h6⟩ := of_decide_eq_true h
  exact ⟨h1, h2, h3, h4, h5, h6⟩

/-- The invariant of a state in which no operation is in progress, as a check. -/
def invCheck (s : State) : Bool :=
  paramsCheck s.cfg &&
  decide ((s.fifo.rx.head.toNat < s.cfg.cRx ∧ s.fifo.rx.tail.toNat < s.cfg.cRx) ∧
    (s.fifo.tx.head.toNat < s.cfg.cTx ∧ s.fifo.tx.tail.toNat < s.cfg.cTx) ∧
    (Mem.Wf (some 0) s.cfg.cRx s.fifo.rx.mem ∧ Mem.Wf (some 0) s.cfg.cTx s.fifo.tx.mem ∧
      Mem.Wf (some 0xFF) s.cfg.eeSize s.ee.mem ∧ Mem.Wf none 256 s.buf) ∧
    (s.cfg.fcEnable = false → s.fifo.fc = .xonSent) ∧ (s.flag.pending = true → s.flag.alarm ≠ 0) ∧
    (s.ee.busy = false → s.ee.pend = ⟨0, .none, 0⟩) ∧ (s.ee.busy = true → s.ee.pend.addr.toNat < s.cfg.eeSize) ∧
    (s.ee.busy = true → programmed s.ee.pend.mode ((s.peek .eemem s.ee.pend.addr.toNat).getD 0) s.ee.pend.value =
      s.ee.pend.value) ∧
    (s.res.main.status ∈ statusCodes ∧ s.res.rxi.status ∈ statusCodes ∧ s.res.txi.status ∈ statusCodes ∧
      s.res.ext.status ∈ statusCodes) ∧
    s.pend = .const none)

theorem inv_of_check {s : State} (h : invCheck s = true) : s.Inv := by
  rw [invCheck, Bool.and_eq_true] at h
  obtain ⟨h1, h2, ⟨m1, m2, m3, m4⟩, h4, h5, h6, h7, h8, ⟨r1, r2, r3, r4⟩, h10⟩ := of_decide_eq_true h.2
  refine ⟨paramsOk_of_check h.1, h1, h2, fun sp => ?_, h4, h5, h6, h7, fun hb old ho => ?_, fun p => ?_, fun p _ => ?_,
    fun r hr => ?_⟩
  · cases sp
    · exact m1
    · exact m2
    · exact m3
    · exact m4
  · have := h8 hb
    rw [ho] at this
    exact this
  · cases p
    · exact r1
    · exact r2
    · exact r3
    · exact r4
  · rw [h10]; cases p <;> rfl
  · rw [h10] at hr; cases hr

/-- The state a transition gives, for a term that names it. -/
def after (i : Instr) (s : State) : State :=
  match exec i s with
  | .next t => t
  | .fault _ => s
  | .refused _ => s

/-- The state `k` steps give. -/
def afterRun (k : Nat) (s : State) : State :=
  match Sys2Proof.core.run k s with
  | .next t => t
  | .fault _ => s
  | .refused _ => s

def flow : Params := { two with fcEnable := true }
/-- A bus that is idle, with answers to come. -/
def bus (l : List BusAnswer) : State := withBus ⟨.idle, .write, false, 0, .none⟩ l
/-- The reset state with a program cycle in flight that will store 0x0F at 7. -/
def busy : State := { State.reset with ee := ⟨[], true, ⟨7, .writeOnly, 0x0F⟩⟩ }

theorem witness_DecodeOfEncode :
    WellFormed (.eeWriteBlock 65535 255) = true ∧ WellFormed (.i2cReadReg 0x7F 0xFF 0) = true := by decide
theorem witness_EncodeOfDecode : decode 0x43FFFFFF = some (.eeWriteBlock 65535 255) := by decide
theorem witness_NoWordMatchesTwoRows : rows.length = 31 ∧ ∃ r ∈ rows, Row.hits 0x23000000 r = true := by decide
theorem witness_ReservedAndUnassignedWordsAreIllegal :
    (∃ r ∈ rows, field 0x21000080 24 8 = field r.mtch 24 8 ∧ 0x21000080 &&& r.mask ≠ r.mtch) ∧
      5 < (field 0x60000000 28 4).toNat ∧ field 0x10000000 24 4 = 0 ∧
      (field 0x04000000 28 4 = 0 ∧ 4 ≤ (field 0x04000000 24 4).toNat) ∧
      (field 0x17000000 28 4 = 1 ∧ 7 ≤ (field 0x17000000 24 4).toNat) ∧
      (field 0x29000000 28 4 = 2 ∧ 9 ≤ (field 0x29000000 24 4).toNat) ∧
      (field 0x39000000 28 4 = 3 ∧ 9 ≤ (field 0x39000000 24 4).toNat) ∧
      (field 0x45000000 28 4 = 4 ∧ 5 ≤ (field 0x45000000 24 4).toNat) ∧
      (field 0x53000000 28 4 = 5 ∧ 3 ≤ (field 0x53000000 24 4).toNat) ∧
      (∃ s : State, s.sched = .port .ext :: [] ∧ s.pend.get .ext = none ∧ s.prog.get .ext = 0x60000000 :: []) :=
  ⟨by decide, by decide, by decide, by decide, by decide, by decide, by decide, by decide, by decide,
    { State.reset with prog := ⟨[], [], [], [0x60000000]⟩, sched := [.port .ext] }, rfl, rfl, rfl⟩
theorem witness_StepRunsIssuedWord :
    State.reset.sched = [] ∧ (∃ s : State, s.sched = .eea :: []) ∧
      (∃ (s : State) (r : Pending) (i : Instr), s.sched = .port .main :: [] ∧ s.pend.get .main = some r ∧
        decode r.word = some i) ∧
      (∃ (s : State) (i : Instr), s.sched = .port .rxi :: [] ∧ s.pend.get .rxi = none ∧
        s.prog.get .rxi = 0x15000041 :: [] ∧ decode 0x15000041 = some i) ∧
      ∃ s : State, s.sched = .port .txi :: [] ∧ s.pend.get .txi = none ∧ s.prog.get .txi = [] :=
  ⟨rfl, ⟨{ State.reset with sched := [.eea] }, rfl⟩,
    ⟨at' .i2cStop .start { State.reset with sched := [.port .main] }, ⟨0x36000000, .start⟩, .i2cStop, rfl, rfl, by decide⟩,
    ⟨{ State.reset with prog := ⟨[], [0x15000041], [], []⟩, sched := [.port .rxi] }, .rxIngress 0x41, rfl, rfl, rfl,
      by decide⟩,
    { State.reset with sched := [.port .txi] }, rfl, rfl, rfl⟩
theorem witness_PortTableRefuses :
    allowed (.fifoPushWait .rx 0) State.reset.cur = false ∧ allowed .nop .ext = true := by decide
theorem witness_ResultsWrittenOnlyByFinish :
    ∃ s t : State, step s = .next t ∧ t.ip.get .main = s.ip.get .main + 1 :=
  ⟨State.reset.withFetchWord 32 0x01000000, _, rfl, by decide⟩
theorem witness_PowerOnMeetsInvariant :
    ParamsOk Config.defaults ∧ ParamsOk two ∧
      ParamsOk { Config.defaults with cRx := 256, cTx := 256, rxHigh := 255, rxLow := 255, eeSize := 65536 } ∧
      ParamsOk { Config.defaults with eeSize := 1, eeInit := [(0, 0)] } ∧ (withEe [(255, 1)]).Inv ∧
      (withEe [(255, 1)]).ee.busy = false :=
  ⟨paramsOk_of_check (by decide), paramsOk_of_check (by decide), paramsOk_of_check (by decide),
    paramsOk_of_check (by decide), inv_of_check (by decide), rfl⟩
theorem witness_StepKeepsInvariant :
    ∃ s t : State, s.Inv ∧ step s = .next t ∧ t.ee.busy = true :=
  ⟨State.reset.withFetchWord 32 0x4200070F, _, inv_of_check (by decide), rfl, by decide⟩
theorem witness_InvariantStepsNeverStop : State.reset.Inv ∧ busy.Inv :=
  ⟨inv_of_check (by decide), inv_of_check (by decide)⟩
theorem witness_UnitFrames :
    ∃ t u : State, exec (.bufWrite 0 1) State.reset = .next t ∧ unitOf (.bufWrite 0 1) ≠ .fifo ∧
      exec .txEgress (on .txi State.reset) = .next u ∧ unitOf .txEgress ≠ .ee :=
  ⟨_, _, rfl, by decide, rfl, by decide⟩
theorem witness_NonStoringOperationsKeepMemory :
    ∃ t u : State, exec (.eePut 7 0x0F) State.reset = .next t ∧ exec .execRead State.reset = .next u := ⟨_, _, rfl, rfl⟩
theorem witness_StoringOperationsKeepOtherBytes :
    (∃ t, exec (.fifoPushWait .tx 1) State.reset = .next t) ∧
      (∃ t, exec (.rxIngress 1) (on .rxi (withFifo two one empty false .xonSent)) = .next t) ∧
      (∃ t, exec (.bufWrite 255 1) State.reset = .next t) ∧ (∃ t, exec (.eeReadBlock 0 1) State.reset = .next t) ∧
      ∃ t, exec (.i2cReadReg 1 2 1) (at' (.i2cReadReg 1 2 1) .abort (withBus ⟨.started, .write, true, 1, .arbLost⟩ [.done])) =
        .next t :=
  ⟨⟨_, rfl⟩, ⟨_, rfl⟩, ⟨_, rfl⟩, ⟨_, rfl⟩, _, rfl⟩
theorem witness_PlainReadsChangeNothing :
    (∃ t, exec (.bufRead 255) State.reset = .next t) ∧ (∃ t, exec (.eeGet 255) State.reset = .next t) ∧
      ∃ t, exec (.eeGet 255) { State.reset with ee := ⟨[], true, ⟨5, .writeOnly, 0x0C⟩⟩ } = .next t ∧ t.pend.main ≠ none :=
  ⟨⟨_, rfl⟩, ⟨_, rfl⟩, _, rfl, by decide⟩
theorem witness_ErrorStatusChangesNothingElse :
    ∃ t u : State, exec (.eeGet 256) State.reset = .next t ∧ t.ip.get .main = State.reset.ip.get .main + 1 ∧
      (t.res.get .main).status = Status.errRange.code ∧ exec (.csrRead 0x11) State.reset = .next u ∧
      (u.res.get .main).status = Status.errArg.code :=
  ⟨_, _, rfl, rfl, rfl, rfl, rfl⟩
theorem witness_AlarmWriters :
    ∃ t u : State, exec (.alarmRaise 1) State.reset = .next t ∧ exec .dispatchTake (withFlags 0 1 true) = .next u :=
  ⟨_, _, rfl, rfl⟩
theorem witness_AlarmChangesNoOperation :
    (∀ m, Instr.eePut 7 0x0F ≠ .alarmRaise m) ∧ Instr.eePut 7 0x0F ≠ .alarmClear ∧
      (∀ j, Instr.eePut 7 0x0F ≠ .csrRead j) ∧ State.reset.withAlarm 1 true ≠ State.reset :=
  ⟨fun _ h => (by cases h), fun h => (by cases h), fun _ h => (by cases h), by decide⟩
theorem witness_PointersAndOccupancy :
    (256 ≤ 256 ∧ (255 : Byte).toNat < 256) ∧ (2 : Nat) ≤ 2 ∧ one.InRange 2 ∧ Queue.InRange 256 ⟨[], 255, 0⟩ := by
  refine ⟨by decide, by decide, ⟨by decide, by decide⟩, by decide, by decide⟩
theorem witness_QueueOwnership :
    ∃ t u : State, exec (.fifoPushDrop .rx 1) (on .rxi State.reset) = .next t ∧ (t.queue .rx).head ≠ 0 ∧
      exec .ctrlReset State.reset = .next u := ⟨_, _, rfl, by decide, rfl⟩
theorem witness_QueueOrder :
    ∃ s t : State, s.Inv ∧ exec (.fifoPop .rx) s = .next t ∧ s.held .rx = [0x41] ∧ t.held .rx = [] :=
  ⟨withFifo two one empty false .xonSent, _, inv_of_check (by decide), rfl, by decide, by decide⟩
theorem witness_PushWaitTransition :
    (State.reset.Inv ∧ State.reset.cur = .main ∧ State.reset.isFull .tx = false) ∧
      ∃ s : State, s.Inv ∧ s.cur = .main ∧ s.isFull .tx = true ∧ s.flag.exec.getLsbD 4 = false ∧
        State.Inv { s with flag := ⟨0x10, 0, false⟩ } :=
  ⟨⟨inv_of_check (by decide), rfl, by decide⟩, withFifo two empty one false .xonSent, inv_of_check (by decide), rfl,
    by decide, by decide, inv_of_check (by decide)⟩
theorem witness_PushDropTransition :
    (∃ s : State, s.Inv ∧ s.cur = producer .rx ∧ s.isFull .rx = true) ∧
      ∃ s : State, s.Inv ∧ s.cur = producer .tx ∧ s.isFull .tx = false :=
  ⟨⟨on .rxi (withFifo two one empty true .xonSent), inv_of_check (by decide), rfl, by decide⟩, State.reset,
    inv_of_check (by decide), rfl, by decide⟩
theorem witness_PopTransition :
    (∃ s : State, s.Inv ∧ s.cur = consumer .rx ∧ s.isEmpty .rx = true) ∧
      ∃ s : State, s.Inv ∧ s.cur = consumer .tx ∧ s.isEmpty .tx = false :=
  ⟨⟨State.reset, inv_of_check (by decide), rfl, by decide⟩, on .txi (withFifo two empty one false .xonSent),
    inv_of_check (by decide), rfl, by decide⟩
theorem witness_CountTransition : (withFifo two one one false .xonSent).Inv := inv_of_check (by decide)
theorem witness_IngressTransition :
    (on .rxi State.reset).Inv ∧ rtCause Config.defaults 0x18 = some .reset ∧ rtCause Config.defaults 0xFF = none ∧
      State.reset.isFull .rx = false ∧ (on .rxi (withFifo two one empty false .xonSent)).Inv ∧
      (withFifo two one empty false .xonSent).isFull .rx = true :=
  ⟨inv_of_check (by decide), by decide, by decide, by decide, inv_of_check (by decide), by decide⟩
theorem witness_EgressTransition :
    (on .txi (withFifo flow empty one false .sendXoff)).Inv ∧ (on .txi (withFifo flow empty one false .sendXon)).Inv ∧
      (on .txi (withFifo flow empty one false .xoffSent)).Inv ∧ (withFifo flow empty one false .xoffSent).isEmpty .tx = false ∧
      (on .txi State.reset).Inv ∧ State.reset.isEmpty .tx = true :=
  ⟨inv_of_check (by decide), inv_of_check (by decide), inv_of_check (by decide), by decide, inv_of_check (by decide),
    by decide⟩
theorem witness_FlowControlTransitions :
    (∃ s t : State, s.Inv ∧ exec (.rxIngress 1) s = .next t ∧ s.fifo.fc = .xonSent ∧ t.fifo.fc = .sendXoff) ∧
      (∃ s t : State, s.Inv ∧ exec .txEgress s = .next t ∧ s.fifo.fc = .sendXoff ∧ t.fifo.fc = .xoffSent) ∧
      (∃ s t : State, s.Inv ∧ exec (.fifoPop .rx) s = .next t ∧ s.fifo.fc = .xoffSent ∧ t.fifo.fc = .sendXon) ∧
      ∃ s t : State, s.Inv ∧ exec .txEgress s = .next t ∧ s.fifo.fc = .sendXon ∧ t.fifo.fc = .xonSent :=
  ⟨⟨on .rxi (withFifo flow empty empty false .xonSent), _, inv_of_check (by decide), rfl, rfl, by decide⟩,
    ⟨on .txi (withFifo flow empty empty false .sendXoff), _, inv_of_check (by decide), rfl, rfl, by decide⟩,
    ⟨withFifo flow one empty false .xoffSent, _, inv_of_check (by decide), rfl, rfl, by decide⟩,
    on .txi (withFifo flow empty empty false .sendXon), _, inv_of_check (by decide), rfl, rfl, by decide⟩
theorem witness_ExecRaiseAndClearTransitions : (withFlags 0x7F 0 false).cur = .main := rfl
theorem witness_AlarmRaiseAndClearTransitions :
    (withFlags 0 0x3F true).cur = .main ∧ (withFlags 0 0x3F true).Inv ∧ (withFlags 0 0x3F true).flag.pending = true :=
  ⟨rfl, inv_of_check (by decide), rfl⟩
theorem witness_DispatchTransitions : (withFlags 0x10 0x01 true).cur = .main := rfl
theorem witness_EightTakesDrainTheFlags : (withFlags 0x7F 0x3F true).cur = .main := rfl
theorem witness_IllegalPhaseIsI2cSeq :
    (bus []).cur = .main ∧ (bus []).i2c.phase = .idle ∧
      (∃ s : State, s.cur = .main ∧ s.stage = .start ∧ s.i2c.phase = .started) := by
  exact ⟨rfl, rfl, withBus ⟨.started, .write, false, 1, .start⟩ [], rfl, rfl, rfl⟩
theorem witness_StartTransitions :
    ((bus [.ok]).cur = .main ∧ (bus [.ok]).stage = .start ∧ (bus [.ok]).busIn = .ok :: []) ∧
      (bus [.berr]).busIn = .berr :: [] ∧
      (split (bus [.ok])).cfg.startAtomic = false ∧
      ((bus [.ok, .nack]).cfg.startAtomic = true ∧ (bus [.ok, .nack]).busIn = .ok :: .nack :: [] ∧
        ByteAnswered .addrRAck .addrRNack .nack .nack .addrRNack) ∧
      ∃ s : State, s.cur = .main ∧ s.stage = .addr ∧ s.busIn = .nack :: [] :=
  ⟨⟨rfl, rfl, rfl⟩, rfl, rfl, ⟨rfl, rfl, .inr (.inl ⟨rfl, rfl, rfl⟩)⟩,
    at' (.i2cStart 1 .read) .addr (bus [.nack]), rfl, rfl, rfl⟩
/-- V-I2C-1, R79: both phases in one transition, and a hold that takes no answer while the address byte has
none. -/
theorem test_start_in_one_transition :
    gives (.i2cStart 0x29 .write) (bus [.ok, .ack])
        (fun t => t.res.main == ⟨0, 0x0003⟩ && t.logs.busLog == [.s, .a 0x52 .ack] && t.i2c.phase == .addressSent) = true ∧
      gives (.i2cStart 0x29 .write) (bus [.ok]) (fun t => t.logs.busLog == [] && t.busIn == [.ok]) = true := by
  decide
theorem witness_AcknowledgedStartCompletes :
    (bus [.ok, .ack]).cur = .main ∧ (bus [.ok, .ack]).stage = .start ∧ (bus [.ok, .ack]).busIn = .ok :: .ack :: [] :=
  ⟨rfl, rfl, rfl⟩
theorem witness_BusWriteTransition :
    ∃ s : State, s.cur = .main ∧ s.i2c.phase = .dataPhase ∧ s.i2c.dir = .write ∧ s.i2c.nak = false ∧
      s.busIn = .ack :: [] := ⟨withBus ⟨.dataPhase, .write, false, 1, .dataWAck⟩ [.ack], rfl, rfl, rfl, rfl, rfl⟩
theorem witness_BusReadTransitions :
    ∃ s : State, s.cur = .main ∧ s.i2c.phase = .addressSent ∧ s.i2c.dir = .read ∧ s.i2c.nak = false ∧
      s.busIn = .byte 0xFF :: [] := ⟨withBus ⟨.addressSent, .read, false, 1, .addrRAck⟩ [.byte 0xFF], rfl, rfl, rfl, rfl, rfl⟩
theorem witness_BusStopTransition :
    (∃ s : State, s.cur = .main ∧ s.i2c.phase = .started ∧ s.busIn = .done :: []) ∧ State.reset.i2c.phase = .idle :=
  ⟨⟨withBus ⟨.started, .write, true, 1, .arbLost⟩ [.done], rfl, rfl, rfl⟩, rfl⟩
theorem witness_HoldsExactlyWhenNothingMoves :
    (bus []).holds (.i2cStart 1 .read) = true ∧ busy.holds (.eeGet 255) = true ∧ busy.holds (.eeGet 256) = false ∧
      (∃ t, exec (.eeGet 256) busy = .next t) ∧ (bus [.ok]).holds (.i2cStart 1 .read) = true ∧
      (bus [.ok, .ack]).holds (.i2cStart 1 .read) = false ∧ isComposite (.i2cStart 1 .read) = false :=
  ⟨by decide, by decide, by decide, ⟨_, rfl⟩, by decide, by decide, rfl⟩
theorem witness_WriteRegCompletes :
    (∃ s : State, s.cur = .main ∧ s.stage = .start ∧ s.i2c.phase = .idle ∧ s.bufBytes 2 = [some 0x01, none] ∧
      s.busIn = .ok :: (List.replicate (2 + 2) .ack ++ .done :: [])) ∧
      (bus [.ok, .ack, .ack, .done]).busIn = .ok :: (List.replicate (0 + 2) .ack ++ .done :: []) :=
  ⟨⟨{ bus [.ok, .ack, .ack, .ack, .ack, .done] with buf := [(0, 0x01)] }, rfl, rfl, rfl, by decide, rfl⟩, rfl⟩
theorem witness_ReadRegCompletes :
    ∃ s : State, s.cur = .main ∧ s.stage = .start ∧ s.i2c.phase = .idle ∧
      s.busIn = .ok :: .ack :: .ack :: .ok :: .ack :: (([0x77] : List Byte).map BusAnswer.byte ++ .done :: []) :=
  ⟨bus [.ok, .ack, .ack, .ok, .ack, .byte 0x77, .done], rfl, rfl, rfl, rfl⟩
theorem witness_FailedCompositeEnds :
    ∃ s : State, s.cur = .main ∧ s.stage = .abort ∧ s.i2c.phase.isOpen = true ∧ s.busIn = .done :: [] :=
  ⟨at' (.i2cReadReg 1 2 255) .abort (withBus ⟨.started, .write, true, 1, .arbLost⟩ [.done]), rfl, rfl, rfl, rfl⟩
/-- The stages and answers of the other clauses, the last data byte of a transfer of 255 among them. -/
theorem witness_FailedCompositeEnds_phases :
    (StartFails .lost .arbLost ∧ (bus [.lost]).stage = .start ∧ (bus [.lost]).i2c.phase = .idle ∧
      (bus [.lost]).busIn = .lost :: []) ∧
    (ByteAnswered .addrWAck .addrWNack .nack .nack .addrWNack ∧ ByteAnswered .dataWAck .dataWNack .berr .berr .busError) ∧
    (at' (.i2cWriteReg 1 2 255) .addr (bus [.nack])).stage = .addr ∧
    (at' (.i2cReadReg 1 2 255) .reg (bus [.nack])).stage = .reg ∧
    (at' (.i2cWriteReg 1 2 255) (.data 254) (bus [.nack])).stage = .data 254 ∧
    (at' (.i2cReadReg 1 2 255) .restart (bus [.berr])).stage = .restart ∧
    (at' (.i2cReadReg 1 2 255) .raddr (bus [.nack])).stage = .raddr ∧
    (at' (.i2cReadReg 1 2 255) (.data 254) (bus [.byte 7])).busIn = .byte 7 :: [] :=
  ⟨⟨.inl ⟨rfl, rfl⟩, rfl, rfl, rfl⟩, ⟨.inr (.inl ⟨rfl, rfl, rfl⟩), .inr (.inr (.inr ⟨rfl, rfl, rfl⟩))⟩, rfl, rfl, rfl, rfl,
    rfl, rfl⟩
/-- MAIN is about to write a register of a target that acknowledges everything, with no data byte. -/
def compose : State :=
  { bus [.ok, .ack, .ack, .done] with
    prog := ⟨[0x37528000], [], [], []⟩, sched := [.port .main, .port .main, .eea, .port .main, .port .main] }
theorem witness_OneStopPerComposite :
    WellFormed (.i2cWriteReg 0x29 0x80 0) = true ∧ compose.Inv ∧ compose.pend.main = none ∧
      compose.prog.main = encode (.i2cWriteReg 0x29 0x80 0) :: [] ∧
      Sys2Proof.core.run 5 compose = .next (afterRun 5 compose) ∧ (afterRun 5 compose).pend.main = none ∧
      (afterRun 5 compose).ip.main = compose.ip.main + 1 ∧ (afterRun 5 compose).res.main.status = Status.ok.code :=
  ⟨rfl, inv_of_check (by decide), rfl, by decide, rfl, by decide, by decide, by decide⟩
theorem witness_PutStoresItsValue :
    State.reset.Inv ∧ 255 < State.reset.cfg.eeSize ∧ State.reset.cur = .main ∧ State.reset.ee.busy = false ∧
      exec (.eePut 255 0x00) State.reset = .next (after (.eePut 255 0x00) State.reset) ∧
      (after (.eePut 255 0x00) State.reset).ee.busy = true ∧
      exec (.eePut 255 0xFF) State.reset = .next (after (.eePut 255 0xFF) State.reset) ∧
      (after (.eePut 255 0xFF) State.reset).ee.busy = false ∧ classify 0x00 0xFF = .eraseOnly ∧
      classify 0xFF 0x00 = .writeOnly :=
  ⟨inv_of_check (by decide), by decide, rfl, rfl, rfl, by decide, rfl, by decide, by decide, by decide⟩
theorem witness_EeDoneTransition :
    IsRun (fun _ => State.reset) ∧ busy.Inv ∧ busy.ee.busy = true ∧ State.reset.Inv ∧ State.reset.ee.busy = false :=
  ⟨fun _ => rfl, inv_of_check (by decide), rfl, inv_of_check (by decide), rfl⟩
/-- R208: with nothing scheduled EEA ends the cycle in flight. -/
theorem test_step_ends_the_cycle_when_nothing_is_scheduled :
    stepGives { State.reset with ee := ⟨[(5, 0x3C)], true, ⟨5, .writeOnly, 0x0C⟩⟩ }
      (fun t => t.ee == ⟨[(5, 0x0C)], false, ⟨0, .none, 0⟩⟩) = true := by decide
theorem witness_RangeErrorThenHold :
    busy.cur = .main ∧ busy.ee.busy = true ∧ busy.cfg.eeSize ≤ 256 ∧ 255 < busy.cfg.eeSize ∧ busy.cfg.eeSize ≤ 253 + 3 ∧
      252 + 3 < busy.cfg.eeSize := by decide
theorem witness_GetAndPutTransitions :
    State.reset.cfg.eeSize ≤ 256 ∧ (255 < busy.cfg.eeSize ∧ busy.ee.busy = true) ∧ State.reset.cur = .main ∧ 255 < State.reset.cfg.eeSize ∧ State.reset.ee.busy = false ∧ classify 0xFF 0xFF = .none ∧
      classify 0xFF 0x00 ≠ .none := by decide
theorem witness_RepeatedPutStartsNoCycle :
    ∃ t u : State, exec (.eePut 255 0x00) State.reset = .next t ∧ eeDone t = .next u ∧ State.reset.Inv :=
  ⟨_, _, rfl, rfl, inv_of_check (by decide)⟩
theorem witness_WriteBlockTransitions :
    State.reset.cur = .main ∧ 0 + 255 < State.reset.cfg.eeSize ∧ State.reset.ee.busy = false ∧
      State.reset.blockLoop.1 < 255 ∧ (at' (.eeWriteBlock 0 1) (.block 1 7) State.reset).blockLoop.1 = 1 := by decide
theorem witness_ReadBlockTransitions :
    State.reset.cur = .main ∧ 252 + 3 < State.reset.cfg.eeSize ∧ State.reset.ee.busy = false ∧
      State.reset.blockLoop.1 < 3 ∧ 0 ≤ State.reset.blockLoop.1 := by decide
theorem witness_RotateDetectsOneChangedByte : (0x01 : Byte) ≠ 0x02 := by decide
/-- MAIN is about to write a record of one byte at the end of the array and to read it back. -/
def record : State :=
  { State.reset with
    buf := [(0, 0x01)], prog := ⟨[0x4300FE01, 0x4400FE01], [], [], []⟩,
    sched := [.port .main, .eea, .port .main, .eea, .port .main, .port .main] }
theorem witness_RecordRoundTrip :
    record.Inv ∧ 254 + 1 < record.cfg.eeSize ∧ record.bufReads 1 = [0x01] ∧ record.pend.main = none ∧
      record.prog.main = encode (.eeWriteBlock 254 1) :: encode (.eeReadBlock 254 1) :: [] ∧
      Sys2Proof.core.run 6 record = .next (afterRun 6 record) ∧ (afterRun 6 record).pend.main = none ∧
      (afterRun 6 record).ip.main = record.ip.main + 2 :=
  ⟨inv_of_check (by decide), by decide, by decide, rfl, by decide, rfl, by decide, by decide⟩
theorem witness_NopAndBufferTransitions :
    (255 < 256 ∧ State.reset.cur = .main) ∧ Mem.get? [(255, 0xAA)] 255 = some 0xAA ∧ State.reset.bufWritten 255 = false := by
  decide
theorem witness_CsrReadShowsTheMap : 0x10 < 0x11 ∧ 0x10 ≤ 0x10 ∧ busy.Inv := ⟨by decide, by decide, inv_of_check (by decide)⟩
theorem witness_ControllerReset : (withFlags 0x7F 0x3F true).cur = .main := rfl

end Sys2Proof.Tests
end

/-! # What a transition of an operation can do (00_scope.md R13, R17, R79; 10_state.md R31, R32, R34)

Every operation is built from a few shared operations: reads and writes of a space, bus phases, the hold, `finish` and
`await`. `Transition` says what one transition of an operation may answer. Each shared operation has one rule for it, the
rules compose along each operation to `exec_transition`, and the obligations O8, O11 and O42 are read off it. -/

namespace Sys2Proof.Machine

/-! ## The part of the state that only `finish` and `await` write -/

/-- The registers of the issuing ports, whose transition it is, and the parameters. -/
def State.control (s : State) : PerPort Result × PerPort (Option Pending) × PerPort Nat × Port × Params :=
  (s.res, s.pend, s.ip, s.cur, s.cfg)

theorem State.control_eq_iff {s t : State} :
    t.control = s.control ↔ t.res = s.res ∧ t.pend = s.pend ∧ t.ip = s.ip ∧ t.cur = s.cur ∧ t.cfg = s.cfg := by
  simp [State.control]

section
variable (s : State)
@[simp] theorem State.setFlag_control (f : FlagUnit) : (s.setFlag f).control = s.control := rfl
@[simp] theorem State.setEe_control (u : EeUnit) : (s.setEe u).control = s.control := rfl
@[simp] theorem State.setBusIn_control (l : List BusAnswer) : (s.setBusIn l).control = s.control := rfl
@[simp] theorem State.setSched_control (l : List Agent) : (s.setSched l).control = s.control := rfl
@[simp] theorem State.setDraws_control (n : Nat) : (s.setDraws n).control = s.control := rfl
@[simp] theorem State.setMem_control (m : Memory) (sp : Space) : (s.setMem m sp).control = s.control := by
  simp [State.control]
@[simp] theorem State.setQueue_control (u : Queue) (q : QueueId) : (s.setQueue u q).control = s.control := by
  simp [State.control]
@[simp] theorem State.setFc_control (c : FcState) : (s.setFc c).control = s.control := rfl
@[simp] theorem State.rxOverflow_control : s.rxOverflow.control = s.control := rfl
@[simp] theorem State.rxStored_control : s.rxStored.control = s.control := by simp [State.control]
@[simp] theorem State.rxPopped_control : s.rxPopped.control = s.control := by simp [State.control]
@[simp] theorem State.afterStore_control (q : QueueId) : (s.afterStore q).control = s.control := by
  cases q <;> simp [State.afterStore]
@[simp] theorem State.afterDrop_control (q : QueueId) : (s.afterDrop q).control = s.control := by cases q <;> rfl
@[simp] theorem State.afterPop_control (q : QueueId) : (s.afterPop q).control = s.control := by
  cases q <;> simp [State.afterPop]
@[simp] theorem State.emitTx_control (b : Byte) : (s.emitTx b).control = s.control := rfl
@[simp] theorem State.controllerReset_control : s.controllerReset.control = s.control := rfl
@[simp] theorem State.startCycle_control (a : Nat) (m : Mode) (old v : Byte) :
    (s.startCycle a m old v).control = s.control := rfl
@[simp] theorem State.startPhase_control (a : BitVec 7) (rw : Dir) (r : StartAnswer) :
    (s.startPhase a rw r).control = s.control := rfl
@[simp] theorem State.addrPhase_control (a : BitVec 7) (rw : Dir) (r : ByteAnswer) :
    (s.addrPhase a rw r).control = s.control := rfl
@[simp] theorem State.writePhase_control (d : Byte) (r : ByteAnswer) : (s.writePhase d r).control = s.control := rfl
@[simp] theorem State.readPhase_control (m : ReadReply) (b : Byte) : (s.readPhase m b).control = s.control := rfl
@[simp] theorem State.stopPhase_control : s.stopPhase.control = s.control := rfl
end

/-! ## When an operation holds -/

/-- The bus phase needed, if one is, has no answer of its set (R171, R183). -/
def State.silent (s : State) : Option BusPhase → Bool
  | some ph => !s.answered ph
  | none => false

/-- The hold conditions of R255, the port check apart. -/
def State.waits (s : State) (i : Instr) : Bool := s.unitHold i || s.silent (s.busNeed i)

theorem State.holds_eq (s : State) (i : Instr) : s.holds i = (allowed i s.cur && s.waits i) := by
  unfold State.holds State.waits
  cases s.busNeed i <;> rfl

/-! ## The specification of a transition -/

/-- Operations that may take more than one transition: the composites, and the starts of log 23 that are split and whose
start condition is still to be sent. -/
def State.mayGoOn (s : State) (i : Instr) : Prop :=
  isComposite i = true ∨ (isStart i = true ∧ s.cfg.startAtomic = false ∧ s.stage ≠ .addr)

/-- A transition that is no hold ends the operation, or takes one that may go on to another stage. -/
def Moved (i : Instr) (s t : State) : Prop :=
  (∃ st d, Ended s t st d) ∨ (s.mayGoOn i ∧ ∃ st, st ≠ s.stage ∧ GoesOn i s t st)

/-- What keeps every access of an operation inside its space: operands that fit their fields, and queue pointers that
are slots. -/
def InSpaces (i : Instr) (s : State) : Prop :=
  WellFormed i = true ∧ ∀ q, (s.queue q).InRange (capacity s.cfg q)

/-- What one transition of `i` from `s` may answer, by whether `i` holds: the hold, and otherwise a state that moved or,
where an access may leave its space, a fault. -/
def Transition (i : Instr) (s : State) : Bool → Out → Prop
  | true, o => o = .next (s.hold i)
  | false, .next t => Moved i s t
  | false, .fault _ => ¬ InSpaces i s
  | false, .refused _ => False

section
variable {i : Instr} {s u t : State} {o : Out}

theorem Transition.exists_next {b : Bool} (h : Transition i s b o) (hs : InSpaces i s) : ∃ t, o = .next t := by
  cases b with
  | true => exact ⟨_, h⟩
  | false =>
    cases o with
    | next t => exact ⟨t, rfl⟩
    | fault r => exact absurd hs h
    | refused r => exact h.elim

/-! ## One rule per shared operation -/

theorem finish_transition {st : Status} {d : Half} (hu : u.control = s.control) :
    Transition i s false (.next (u.finish st d)) := by
  obtain ⟨hres, hpend, hip, hcur, -⟩ := State.control_eq_iff.1 hu
  exact .inl ⟨st, d, by simp [hres, hcur], by simp [hpend, hcur], by simp [hip, hcur]⟩

theorem finishBus_transition {st : Status} (hu : u.control = s.control) :
    Transition i s false (.next (u.finishBus st)) :=
  finish_transition hu

theorem await_transition {st : Stage} (hi : s.mayGoOn i) (hst : st ≠ s.stage) (hu : u.control = s.control) :
    Transition i s false (.next (u.await i st)) := by
  obtain ⟨hres, hpend, hip, hcur, -⟩ := State.control_eq_iff.1 hu
  exact .inr ⟨hi, st, hst, hres, by simp [hpend, hcur], hip⟩

theorem onPort_transition (h : Transition i s (s.waits i) o) : Transition i s (s.holds i) (onPort i s o) := by
  rw [State.holds_eq]
  cases ha : allowed i s.cur with
  | true => rw [onPort_allowed ha]; exact h
  | false => rw [onPort_refused ha]; exact finish_transition rfl

theorem readByte_transition {sp : Space} {a : Nat} {k : Byte → State → Out} (hu : u.control = s.control)
    (ha : InSpaces i s → a < sp.size s.cfg)
    (hk : ∀ v t, t.control = s.control → Transition i s false (k v t)) : Transition i s false (readByte sp a u k) := by
  obtain ⟨-, -, -, -, hcfg⟩ := State.control_eq_iff.1 hu
  unfold readByte
  rw [hcfg]
  split
  · split
    · exact hk _ _ hu
    · exact hk _ _ (by simp [hu])
  · exact fun hs => absurd (ha hs) ‹_›

theorem writeByte_transition {sp : Space} {a : Nat} {v : Byte} {k : State → Out} (hu : u.control = s.control)
    (ha : InSpaces i s → a < sp.size s.cfg)
    (hk : ∀ t, t.control = s.control → Transition i s false (k t)) : Transition i s false (writeByte sp a v u k) := by
  obtain ⟨-, -, -, -, hcfg⟩ := State.control_eq_iff.1 hu
  unfold writeByte
  rw [hcfg]
  split
  · exact hk _ (by simp [hu])
  · exact fun hs => absurd (ha hs) ‹_›

theorem putByte_transition {a : Nat} {v : Byte} {k : Mode → State → Out} (hu : u.control = s.control)
    (ha : InSpaces i s → a < s.cfg.eeSize)
    (hk : ∀ m t, t.control = s.control → Transition i s false (k m t)) : Transition i s false (putByte a v u k) := by
  refine readByte_transition hu ha fun old t ht => ?_
  split
  · exact hk _ _ ht
  · exact hk _ _ (by simp [ht])

theorem zeroBuf_transition {n : Nat} {k : State → Out} (hu : u.control = s.control) (hn : InSpaces i s → n ≤ 256)
    (hk : ∀ t, t.control = s.control → Transition i s false (k t)) : Transition i s false (zeroBuf n u k) := by
  induction n generalizing u with
  | zero => exact hk u hu
  | succ n ih => exact writeByte_transition hu hn fun t ht => ih ht fun hs => Nat.le_of_succ_le (hn hs)

theorem enqueue_transition {q : QueueId} {d : Byte} {k : State → Out}
    (hk : ∀ t, t.control = s.control → Transition i s false (k t)) : Transition i s false (enqueue q d s k) := by
  refine writeByte_transition rfl (fun hs => ?_) fun t ht => hk _ (by simp [ht])
  have := (hs.2 q).1
  cases q <;> exact this

theorem dequeue_transition {q : QueueId} {k : Byte → State → Out}
    (hk : ∀ d t, t.control = s.control → Transition i s false (k d t)) : Transition i s false (dequeue q s k) := by
  refine readByte_transition rfl (fun hs => ?_) fun d t ht => hk _ _ (by simp [ht])
  have := (hs.2 q).2
  cases q <;> exact this

theorem whenIdle_transition (h : Transition i s false o) : Transition i s s.ee.busy (whenIdle i s o) := by
  unfold whenIdle
  cases s.ee.busy with
  | true => rfl
  | false => exact h

/-! ## Bus phases -/

theorem onAnswer_transition {α : Type} {sel : BusAnswer → Option α} {k : α → State → Out}
    (hk : ∀ r t, t.control = s.control → Transition i s false (k r t)) :
    Transition i s (!(s.answer sel).isSome) (onAnswer sel i s k) := by
  cases hr : s.answer sel with
  | none => exact onAnswer_none hr
  | some r => rw [onAnswer_some hr]; exact hk r _ rfl

/-- A bus phase that goes on by whether its answer is the good one (R185, R186). -/
theorem onAnswer_ite_transition {α : Type} [DecidableEq α] {sel : BusAnswer → Option α} {good : α}
    {phase : α → State → State} {f g : State → Out} (hphase : ∀ r t, (phase r t).control = t.control)
    (hf : ∀ t, t.control = s.control → Transition i s false (f t))
    (hg : ∀ t, t.control = s.control → Transition i s false (g t)) :
    Transition i s (!(s.answer sel).isSome)
      (onAnswer sel i s fun r t => if r = good then f (phase r t) else g (phase r t)) :=
  onAnswer_transition fun r t ht => by
    split
    · exact hf _ ((hphase r t).trans ht)
    · exact hg _ ((hphase r t).trans ht)

section
variable {a : BitVec 7} {rw : Dir} {d : Byte} {f g : State → Out}
  (hf : ∀ t, t.control = s.control → Transition i s false (f t))
  (hg : ∀ t, t.control = s.control → Transition i s false (g t))
include hf hg

theorem busStart_transition : Transition i s (s.silent (some .start)) (busStart i a rw s f g) :=
  onAnswer_ite_transition (fun r t => t.startPhase_control a rw r) hf hg

theorem busAddr_transition : Transition i s (s.silent (some .addr)) (busAddr i a rw s f g) :=
  onAnswer_ite_transition (fun r t => t.addrPhase_control a rw r) hf hg

theorem busWrite_transition : Transition i s (s.silent (some .write)) (busWrite i d s f g) :=
  onAnswer_ite_transition (fun r t => t.writePhase_control d r) hf hg

/-- The first transition of an I2C composite (R172, R180, R181). -/
theorem composeStart_transition : Transition i s (s.silent s.i2c.composeNeed)
    (if !s.i2c.mayCompose then .next (s.finish .i2cSeq 0) else busStart i a rw s f g) := by
  unfold I2cUnit.composeNeed
  cases s.i2c.mayCompose with
  | true => exact busStart_transition hf hg
  | false => exact finish_transition rfl

end

theorem busRead_transition {m : ReadReply} {k : Byte → State → Out}
    (hk : ∀ b t, t.control = s.control → Transition i s false (k b t)) :
    Transition i s (s.silent (some .read)) (busRead i m s k) :=
  onAnswer_transition fun b t ht => hk b _ (by simp [ht])

theorem busStop_transition {k : State → Out} (hk : ∀ t, t.control = s.control → Transition i s false (k t)) :
    Transition i s (s.silent s.i2c.stopNeed) (busStop i s k) := by
  unfold busStop I2cUnit.stopNeed
  split
  · exact onAnswer_transition fun _ t ht => hk _ (by simp [ht])
  · exact hk s rfl

/-- A start that is one transition holds unless every phase it needs is answered (R79). -/
theorem startWhole_transition {a : BitVec 7} {rw : Dir} :
    Transition i s (s.silent (some .startAddr)) (startWhole i a rw s) := by
  unfold startWhole
  cases hr : s.answer BusAnswer.start? with
  | none =>
    have hw : s.silent (some .startAddr) = true := by simp [State.silent, State.answered, hr]
    rw [hw, onAnswer_none hr]
    rfl
  | some r =>
    rw [onAnswer_some hr]
    by_cases hok : r = .ok
    · subst hok
      cases hq : (s.setBusIn s.busIn.tail).answer BusAnswer.byteAnswer? with
      | none =>
        have hw : s.silent (some .startAddr) = true := by simp [State.silent, State.answered, hr, hq]
        rw [hw, if_pos rfl]
        rfl
      | some q =>
        have hw : s.silent (some .startAddr) = false := by simp [State.silent, State.answered, hr, hq]
        rw [hw, if_pos rfl]
        exact finishBus_transition (by simp)
    · have hw : s.silent (some .startAddr) = false := by simp [State.silent, State.answered, hr, hok]
      rw [hw, if_neg hok]
      exact finishBus_transition (by simp)

theorem startOp_transition {a : BitVec 7} {rw : Dir} (hi : isStart i = true) :
    Transition i s (s.silent (some s.startNeed)) (startOp i a rw s) := by
  unfold startOp State.startNeed
  split
  · exact busAddr_transition (fun _ => finishBus_transition) (fun _ => finishBus_transition)
  · rename_i hst
    split
    · exact startWhole_transition
    · rename_i hatomic
      exact busStart_transition
        (fun _ => await_transition (.inr ⟨hi, Bool.eq_false_iff.2 hatomic, hst⟩) (Ne.symm hst))
        (fun _ => finishBus_transition)

end

end Sys2Proof.Machine

/-! ## The transition of each operation -/

namespace Sys2Proof.Machine

section
variable {s : State}

/-! ### FIFO -/

theorem execFifoPushWait_transition (q : QueueId) (d : Byte) :
    Transition (.fifoPushWait q d) s (s.holds (.fifoPushWait q d)) (execFifoPushWait q d s) := by
  refine onPort_transition ?_
  have hw : s.waits (.fifoPushWait q d) = (s.isFull q && !s.flag.has .reset) := Bool.or_false _
  rw [hw]
  cases s.isFull q with
  | false => exact enqueue_transition fun _ => finish_transition
  | true =>
    cases s.flag.has .reset with
    | true => exact finish_transition rfl
    | false => rfl

theorem execFifoPushDrop_transition (q : QueueId) (d : Byte) :
    Transition (.fifoPushDrop q d) s (s.holds (.fifoPushDrop q d)) (execFifoPushDrop q d s) := by
  refine onPort_transition (show Transition _ s false _ from ?_)
  split
  · exact enqueue_transition fun t ht => finish_transition (by simp [ht])
  · exact finish_transition (by simp)

theorem execFifoPop_transition (q : QueueId) :
    Transition (.fifoPop q) s (s.holds (.fifoPop q)) (execFifoPop q s) := by
  refine onPort_transition (show Transition _ s false _ from ?_)
  split
  · exact finish_transition (by simp)
  · exact dequeue_transition fun d t ht => finish_transition (by simp [ht])

theorem execRxIngress_transition (d : Byte) :
    Transition (.rxIngress d) s (s.holds (.rxIngress d)) (execRxIngress d s) := by
  refine onPort_transition (show Transition _ s false _ from ?_)
  split
  · exact finish_transition rfl
  · split
    · exact enqueue_transition fun t ht => finish_transition (by simp [ht])
    · exact finish_transition rfl

theorem execTxEgress_transition : Transition .txEgress s (s.holds .txEgress) (execTxEgress s) := by
  refine onPort_transition (show Transition _ s false _ from ?_)
  split
  · exact finish_transition rfl
  · split
    · exact finish_transition rfl
    · split
      · exact dequeue_transition fun d t ht => finish_transition (by simp [ht])
      · exact finish_transition rfl

/-! ### I2C -/

theorem execI2cWrite_transition (d : Byte) :
    Transition (.i2cWrite d) s (s.holds (.i2cWrite d)) (execI2cWrite d s) := by
  refine onPort_transition ?_
  have hw : s.waits (.i2cWrite d) = s.silent (if s.i2c.mayWrite then some .write else none) := rfl
  rw [hw]
  cases s.i2c.mayWrite with
  | true => exact busWrite_transition (fun _ => finishBus_transition) (fun _ => finishBus_transition)
  | false => exact finish_transition rfl

/-- The body that I2C_READ_ACK and I2C_READ_NACK share (R176, R177). -/
theorem readByteOp_transition {i : Instr} (m : ReadReply)
    (hw : s.waits i = s.silent (if s.i2c.mayRead then some .read else none)) :
    Transition i s (s.waits i)
      (if !s.i2c.mayRead then .next (s.finish .i2cSeq 0)
        else busRead i m s fun b t => .next (t.finish .ok (zext16 b))) := by
  rw [hw]
  cases s.i2c.mayRead with
  | true => exact busRead_transition fun _ _ => finish_transition
  | false => exact finish_transition rfl

theorem execI2cStop_transition : Transition .i2cStop s (s.holds .i2cStop) (execI2cStop s) :=
  onPort_transition (busStop_transition fun _ => finishBus_transition)

theorem execI2cWriteReg_transition (a : BitVec 7) (reg : Byte) (n : Nat) :
    Transition (.i2cWriteReg a reg n) s (s.holds (.i2cWriteReg a reg n)) (execI2cWriteReg a reg n s) := by
  refine onPort_transition ?_
  have go (st : Stage) (hst : st ≠ s.stage) (t : State) (ht : t.control = s.control) :
      Transition (.i2cWriteReg a reg n) s false (.next (t.await (.i2cWriteReg a reg n) st)) :=
    await_transition (.inl rfl) hst ht
  simp only [State.waits, State.unitHold, State.busNeed, Bool.false_or]
  cases hs : s.stage with rw [hs] at go
  | addr => exact busAddr_transition (go .reg (by simp)) (go .abort (by simp))
  | reg => exact busWrite_transition (go (.data 0) (by simp)) (go .abort (by simp))
  | data j =>
    dsimp only
    split
    · rename_i hj
      refine onAnswer_transition fun r t ht => readByte_transition ht (fun hi => ?_) fun d u hu => ?_
      · exact hj.trans (of_decide_eq_true hi.1)
      · exact go _ (by split <;> simp) _ (by simp [hu])
    · exact busStop_transition fun _ => finish_transition
  | abort => exact busStop_transition fun _ => finish_transition
  | _ => exact composeStart_transition (go .addr (by simp)) (go .abort (by simp))

theorem execI2cReadReg_transition (a : BitVec 7) (reg : Byte) (n : Nat) :
    Transition (.i2cReadReg a reg n) s (s.holds (.i2cReadReg a reg n)) (execI2cReadReg a reg n s) := by
  refine onPort_transition ?_
  have go (st : Stage) (hst : st ≠ s.stage) (t : State) (ht : t.control = s.control) :
      Transition (.i2cReadReg a reg n) s false (.next (t.await (.i2cReadReg a reg n) st)) :=
    await_transition (.inl rfl) hst ht
  have hn (hi : InSpaces (.i2cReadReg a reg n) s) : n < 256 := of_decide_eq_true hi.1
  simp only [State.waits, State.unitHold, State.busNeed, Bool.false_or]
  split
  · exact finish_transition rfl
  cases hs : s.stage with rw [hs] at go
  | addr => exact busAddr_transition (go .reg (by simp)) (go .abort (by simp))
  | reg => exact busWrite_transition (go .restart (by simp)) (go .abort (by simp))
  | restart => exact busStart_transition (go .raddr (by simp)) (go .abort (by simp))
  | raddr => exact busAddr_transition (go (.data 0) (by simp)) (go .abort (by simp))
  | data j =>
    dsimp only
    split
    · rename_i hj
      exact busRead_transition fun b t ht =>
        writeByte_transition ht (fun hi => hj.trans (hn hi)) (go (.data (j + 1)) (by simp))
    · exact busStop_transition fun t ht =>
        readByte_transition ht (fun _ => Nat.succ_pos 255) fun _ _ => finish_transition
  | abort =>
    exact busStop_transition fun t ht => zeroBuf_transition ht (fun hi => (hn hi).le) fun _ => finish_transition
  | _ => exact composeStart_transition (go .addr (by simp)) (go .abort (by simp))

/-! ### EE -/

theorem execEeGet_transition (a : Nat) : Transition (.eeGet a) s (s.holds (.eeGet a)) (execEeGet a s) := by
  refine onPort_transition ?_
  have hw : s.waits (.eeGet a) = (inEeprom s.cfg a && s.ee.busy) := Bool.or_false _
  rw [hw]
  cases ha : inEeprom s.cfg a with
  | false => exact finish_transition rfl
  | true =>
    exact whenIdle_transition
      (readByte_transition rfl (fun _ => of_decide_eq_true ha) fun _ _ => finish_transition)

theorem execEePut_transition (a : Nat) (v : Byte) :
    Transition (.eePut a v) s (s.holds (.eePut a v)) (execEePut a v s) := by
  refine onPort_transition ?_
  have hw : s.waits (.eePut a v) = (inEeprom s.cfg a && s.ee.busy) := Bool.or_false _
  rw [hw]
  cases ha : inEeprom s.cfg a with
  | false => exact finish_transition rfl
  | true =>
    exact whenIdle_transition
      (putByte_transition rfl (fun _ => of_decide_eq_true ha) fun _ _ => finish_transition)

/-- The stage after a byte of a block is another stage: its index is one more. -/
theorem State.block_ne_stage (c : Byte) : Stage.block (s.blockLoop.1 + 1) c ≠ s.stage := by
  unfold State.blockLoop
  cases s.stage <;> simp

theorem execEeWriteBlock_transition (a len : Nat) :
    Transition (.eeWriteBlock a len) s (s.holds (.eeWriteBlock a len)) (execEeWriteBlock a len s) := by
  refine onPort_transition ?_
  have hw : s.waits (.eeWriteBlock a len) = (blockInEeprom s.cfg a len && s.ee.busy) := Bool.or_false _
  rw [hw]
  cases ha : blockInEeprom s.cfg a len with
  | false => exact finish_transition rfl
  | true =>
    have hend : a + len < s.cfg.eeSize := of_decide_eq_true ha
    refine whenIdle_transition ?_
    split
    · rename_i hj
      refine readByte_transition rfl (fun hi => ?_) fun d t ht =>
        putByte_transition ht (fun _ => by omega) fun _ _ => await_transition (.inl rfl) (State.block_ne_stage _)
      exact hj.trans (of_decide_eq_true (Bool.and_eq_true_iff.1 hi.1).2)
    · exact putByte_transition rfl (fun _ => hend) fun _ _ => finish_transition

theorem execEeReadBlock_transition (a len : Nat) :
    Transition (.eeReadBlock a len) s (s.holds (.eeReadBlock a len)) (execEeReadBlock a len s) := by
  refine onPort_transition ?_
  have hw : s.waits (.eeReadBlock a len) = (blockInEeprom s.cfg a len && s.ee.busy) := Bool.or_false _
  rw [hw]
  cases ha : blockInEeprom s.cfg a len with
  | false => exact finish_transition rfl
  | true =>
    have hend : a + len < s.cfg.eeSize := of_decide_eq_true ha
    refine whenIdle_transition ?_
    split
    · rename_i hj
      refine readByte_transition rfl (fun _ => show _ < s.cfg.eeSize by omega) fun d t ht =>
        writeByte_transition ht (fun hi => ?_) fun _ => await_transition (.inl rfl) (State.block_ne_stage _)
      exact hj.trans (of_decide_eq_true (Bool.and_eq_true_iff.1 hi.1).2)
    · exact readByte_transition rfl (fun _ => hend) fun _ _ => finish_transition

/-! ### All operations -/

/-- Everything one transition of an operation can do: it answers the hold where `holds` says so. Otherwise it ends the
operation, or one that takes several transitions goes on, and an access leaves its space only if `InSpaces` fails. -/
theorem exec_transition (i : Instr) (s : State) : Transition i s (s.holds i) (exec i s) := by
  cases i with
  | nop => exact onPort_transition (finish_transition rfl)
  | csrRead idx =>
    refine onPort_transition (show Transition _ s false _ from ?_)
    split <;> exact finish_transition rfl
  | ctrlReset => exact onPort_transition (finish_transition rfl)
  | fifoPushWait q d => exact execFifoPushWait_transition q d
  | fifoPushDrop q d => exact execFifoPushDrop_transition q d
  | fifoPop q => exact execFifoPop_transition q
  | fifoCount q => exact onPort_transition (finish_transition rfl)
  | rxIngress d => exact execRxIngress_transition d
  | txEgress => exact execTxEgress_transition
  | execRaise m => exact onPort_transition (finish_transition rfl)
  | execClear m => exact onPort_transition (finish_transition rfl)
  | execRead => exact onPort_transition (finish_transition rfl)
  | alarmRaise m => exact onPort_transition (finish_transition rfl)
  | alarmClear => exact onPort_transition (finish_transition rfl)
  | alarmRead => exact onPort_transition (finish_transition rfl)
  | dispatchPeek => exact onPort_transition (finish_transition rfl)
  | dispatchTake => exact onPort_transition (finish_transition rfl)
  | i2cStart a rw => exact onPort_transition (startOp_transition rfl)
  | i2cRestart a rw => exact onPort_transition (startOp_transition rfl)
  | i2cWrite d => exact execI2cWrite_transition d
  | i2cReadAck => exact onPort_transition (readByteOp_transition .ack rfl)
  | i2cReadNack => exact onPort_transition (readByteOp_transition .nack rfl)
  | i2cStop => exact execI2cStop_transition
  | i2cWriteReg a reg n => exact execI2cWriteReg_transition a reg n
  | i2cReadReg a reg n => exact execI2cReadReg_transition a reg n
  | eeGet a => exact execEeGet_transition a
  | eePut a v => exact execEePut_transition a v
  | eeWriteBlock a len => exact execEeWriteBlock_transition a len
  | eeReadBlock a len => exact execEeReadBlock_transition a len
  | bufWrite idx d =>
    exact onPort_transition
      (writeByte_transition rfl (fun hi => of_decide_eq_true hi.1) fun _ => finish_transition)
  | bufRead idx =>
    exact onPort_transition
      (readByte_transition rfl (fun hi => of_decide_eq_true hi.1) fun _ _ => finish_transition)

theorem exec_of_holds {i : Instr} (h : s.holds i = true) : exec i s = .next (s.hold i) := by
  have := exec_transition i s
  rwa [h] at this

theorem moved_of_not_holds {i : Instr} {t : State} (h : s.holds i = false) (ht : exec i s = .next t) :
    Moved i s t := by
  have := exec_transition i s
  rwa [h, ht] at this

end

end Sys2Proof.Machine

/-! # Steps of the machine, and the obligations settled -/

namespace Sys2Proof.Machine

/-! ## One step of the machine -/

/-- The word that a port takes up comes with the state as it was, except for the program of that port. -/
theorem State.issue_forms (s : State) :
    s.issue = .idle s ∨ ∃ progs, s.issue = .illegal (s.setProg progs) ∨
      ∃ w i, decode w = some i ∧ s.issue = .run i (s.setProg progs) := by
  have decoded_forms (u : State) (w : Word) :
      u.decoded w = .illegal u ∨ ∃ v i, decode v = some i ∧ u.decoded w = .run i u := by
    cases hw : decode w with
    | none => exact .inl (State.decoded_illegal hw)
    | some i => exact .inr ⟨w, i, hw, State.decoded_run hw⟩
  rcases s.issue_cases with ⟨r, -, h⟩ | ⟨-, -, h⟩ | ⟨w, ws, -, -, h⟩
  · exact .inr ⟨s.prog, h ▸ decoded_forms s r.word⟩
  · exact .inl h
  · exact .inr ⟨_, h ▸ decoded_forms (s.setProg (s.prog.set s.cur ws)) w⟩

/-- Everything the step of a port can be. -/
theorem step_port {s : State} {p : Port} {rest : List Agent} (h : s.sched = .port p :: rest) :
    step s = .next ((s.setSched rest).setCur p) ∨ ∃ progs,
      step s = .next ((((s.setSched rest).setCur p).setProg progs).finish .errIllegal 0) ∨
      ∃ w i, decode w = some i ∧ step s = exec i (((s.setSched rest).setCur p).setProg progs) := by
  unfold step
  rw [h]
  rcases ((s.setSched rest).setCur p).issue_forms with hi | ⟨progs, hi | ⟨w, i, hw, hi⟩⟩
  · exact .inl (by simp [hi])
  · exact .inr ⟨progs, .inl (by simp [hi])⟩
  · exact .inr ⟨progs, .inr ⟨w, i, hw, by simp [hi]⟩⟩

theorem eeDone_control {s t : State} (h : eeDone s = .next t) : t.control = s.control := by
  unfold eeDone at h
  split at h
  · obtain ⟨-, ⟨old, -, h⟩ | ⟨hbuf, -⟩⟩ := readByte_next h
    · obtain ⟨-, h⟩ := writeByte_next h
      cases h
      simp
    · cases hbuf
  · cases h; rfl

theorem eeDone_exists_next {s : State} (h : s.ee.busy = true → s.ee.pend.addr.toNat < s.cfg.eeSize) :
    ∃ t, eeDone s = .next t := by
  unfold eeDone
  split
  · have ha : s.ee.pend.addr.toNat < Space.eemem.size s.cfg := h ‹_›
    obtain ⟨old, hold⟩ := s.peek_isSome (sp := .eemem) (by simp) s.ee.pend.addr.toNat
    exact ⟨_, by rw [readByte_settled ha hold, writeByte_eq ha]⟩
  · exact ⟨s, rfl⟩

/-! ## What a step leaves in the result registers (R13, R32) -/

/-- The result and ip of port `p` are as before. -/
def SameResult (s t : State) (p : Port) : Prop := t.res.get p = s.res.get p ∧ t.ip.get p = s.ip.get p

/-- The operation of port `p` has ended: the port is between operations and past one more word. -/
def PastWord (s t : State) (p : Port) : Prop := t.pend.get p = none ∧ t.ip.get p = s.ip.get p + 1

theorem sameResult_of_control {s t : State} (h : t.control = s.control) (p : Port) : SameResult s t p := by
  obtain ⟨hres, -, hip, -⟩ := State.control_eq_iff.1 h
  exact ⟨by rw [hres], by rw [hip]⟩

theorem Ended.ip_succ {s t : State} {st : Status} {d : Half} (h : Ended s t st d) :
    t.ip.get s.cur = s.ip.get s.cur + 1 := by
  obtain ⟨-, -, hip⟩ := h
  simp [hip]

theorem Ended.result {s t : State} {st : Status} {d : Half} (h : Ended s t st d) (p : Port) :
    SameResult s t p ∨ (p = s.cur ∧ PastWord s t p) := by
  obtain ⟨hres, hpend, hip⟩ := h
  by_cases hp : p = s.cur
  · subst hp
    exact .inr ⟨rfl, by simp [hpend], by simp [hip]⟩
  · exact .inl ⟨by rw [hres, PerPort.get_set_other _ _ _ _ hp], by rw [hip, PerPort.get_set_other _ _ _ _ hp]⟩

theorem exec_result {i : Instr} {s t : State} (h : exec i s = .next t) (p : Port) :
    SameResult s t p ∨ (p = s.cur ∧ PastWord s t p) := by
  cases hw : s.holds i with
  | true =>
    rw [exec_of_holds hw] at h
    cases h
    exact .inl ⟨rfl, rfl⟩
  | false =>
    rcases moved_of_not_holds hw h with ⟨st, d, hend⟩ | ⟨-, st, -, hres, -, hip⟩
    · exact hend.result p
    · exact .inl ⟨by rw [hres], by rw [hip]⟩

theorem step_result {s t : State} (h : step s = .next t) (p : Port) :
    SameResult s t p ∨ ((∃ rest, s.sched = .port p :: rest) ∧ PastWord s t p) := by
  rcases step_cases h with ⟨-, h⟩ | ⟨rest, -, h⟩ | ⟨q, rest, hq, -⟩
  · exact .inl (sameResult_of_control (eeDone_control h) p)
  · exact .inl (sameResult_of_control (eeDone_control h) p)
  · rcases step_port hq with hs | ⟨progs, hs⟩
    · rw [hs] at h; cases h
      exact .inl ⟨rfl, rfl⟩
    · have hu : SameResult s t p ∨ (p = q ∧ PastWord s t p) := by
        rcases hs with hs | ⟨w, i, -, hs⟩
        · rw [hs] at h; cases h
          exact Ended.result (s := ((s.setSched rest).setCur q).setProg progs) ⟨rfl, rfl, rfl⟩ p
        · have hexec := exec_result (hs.symm.trans h) p
          exact hexec
      exact hu.imp_right fun ⟨hp, hpast⟩ => ⟨⟨rest, hp ▸ hq⟩, hpast⟩

/-! ## The operands of a decoded word fit their fields (R103, R104) -/

/-- Every row of the opcode table builds operations whose operands fit their fields (R102, R103). -/
theorem wellFormed_build : ∀ r ∈ rows, ∀ w : Word, WellFormed (r.build w) = true := by
  have h8 (w : Word) (lo : Nat) : (field w lo 8).toNat < 256 := (field w lo 8).isLt
  have h16 (w : Word) (lo : Nat) : (field w lo 16).toNat < 65536 := (field w lo 16).isLt
  simp [rows, rowsCtrl, rowsFifo, rowsFlag, rowsI2c, rowsEe, rowsBuf, WellFormed, fitsByte, fitsAddr16, h8, h16]

theorem wellFormed_of_decode {w : Word} {i : Instr} (h : decode w = some i) : WellFormed i = true := by
  obtain ⟨r, hr, rfl⟩ := Option.map_eq_some_iff.1 h
  exact wellFormed_build r (List.mem_of_find?_eq_some hr) w

/-! ## Settled: O8, O11, O42 -/

/-- Settles O8: the fields of `finish`, and `step_result`. -/
theorem resultsWrittenOnlyByFinish : Obligations.ResultsWrittenOnlyByFinish := by
  refine ⟨fun st d s => ⟨by simp, fun p hp => ?_, rfl⟩, fun s t h p => step_result h p⟩
  simp [PerPort.get_set_other _ _ _ _ hp]

/-- Settles O11: EE_DONE writes the cell of its cycle, which lies in the array, and a word that decodes has operands
that fit, so no access of its operation leaves its space (`exec_transition`). -/
theorem invariantStepsNeverStop : Obligations.InvariantStepsNeverStop := by
  intro s hs
  match hsched : s.sched with
  | [] => exact (eeDone_exists_next hs.eeAddr).imp fun t ht => by rw [step, hsched]; exact ht
  | .eea :: rest =>
    exact (eeDone_exists_next (s := s.setSched rest) hs.eeAddr).imp fun t ht => by rw [step, hsched]; exact ht
  | .port p :: rest =>
    rcases step_port hsched with h | ⟨progs, h | ⟨w, i, hw, h⟩⟩
    · exact ⟨_, h⟩
    · exact ⟨_, h⟩
    · rw [h]
      refine (exec_transition i _).exists_next ⟨wellFormed_of_decode hw, fun q => ?_⟩
      cases q with
      | rx => exact hs.rxPointers
      | tx => exact hs.txPointers

/-- Settles O42: the two halves of `exec_transition`, and a transition that may not go on ends its operation. -/
theorem holdsExactlyWhenNothingMoves : Obligations.HoldsExactlyWhenNothingMoves := by
  refine fun i s => ⟨exec_of_holds, fun hw t ht => ?_, fun hcomp hstart hw t ht => ?_⟩
  · rcases moved_of_not_holds hw ht with ⟨st, d, hend⟩ | ⟨-, st, hst, -, hpend, -⟩
    · exact .inl hend.ip_succ
    · exact .inr ⟨st, hst, by simp [hpend]⟩
  · rcases moved_of_not_holds hw ht with ⟨st, d, hend⟩ | ⟨hcomp' | ⟨hi, hatomic, hst⟩, -⟩
    · exact hend.ip_succ
    · simp [hcomp] at hcomp'
    · exact absurd (hstart hi) (by simp [hatomic, hst])

end Sys2Proof.Machine

namespace Sys2Proof

/-! # The word of an operation decodes to it (30_encoding.md R102 to R105) -/

/-! ## Fields of a word put together from parts -/

theorem getLsbD_field {w : Word} {lo n k : Nat} (hk : k < n) : (field w lo n).getLsbD k = w.getLsbD (lo + k) := by
  simp only [field, BitVec.getLsbD_extractLsb', hk, decide_true, Bool.true_and]

theorem getLsbD_place {n : Nat} (v : BitVec n) (lo k : Nat) :
    (place v lo).getLsbD k = (decide (k < 32) && !decide (k < lo) && v.getLsbD (k - lo)) := by
  simp only [place, BitVec.getLsbD_shiftLeft, BitVec.getLsbD_setWidth]
  by_cases hk : k < 32
  · simp [hk, Nat.lt_of_le_of_lt (Nat.sub_le k lo) hk]
  · simp [hk]

theorem field_or (a b : Word) (lo n : Nat) : field (a ||| b) lo n = field a lo n ||| field b lo n :=
  BitVec.eq_of_getLsbD_eq fun k hk => by simp only [BitVec.getLsbD_or, getLsbD_field hk]

theorem field_and (a b : Word) (lo n : Nat) : field (a &&& b) lo n = field a lo n &&& field b lo n :=
  BitVec.eq_of_getLsbD_eq fun k hk => by simp only [BitVec.getLsbD_and, getLsbD_field hk]

/-- A field reads back the operand placed in it. -/
theorem field_place_same {n lo : Nat} (v : BitVec n) (h : lo + n ≤ 32) : field (place v lo) lo n = v :=
  BitVec.eq_of_getLsbD_eq fun k hk => by
    have hword : lo + k < 32 := by omega
    rw [getLsbD_field hk, getLsbD_place]
    simp [hword]

/-- An operand puts nothing into a field above it or below it. -/
theorem field_place_apart {n lo m pos : Nat} (v : BitVec n) (h : lo + n ≤ pos ∨ pos + m ≤ lo) :
    field (place v lo) pos m = 0 :=
  BitVec.eq_of_getLsbD_eq fun k hk => by
    rw [getLsbD_field hk, getLsbD_place]
    rcases h with h | h
    · simp [BitVec.getLsbD_of_ge v (pos + k - lo) (by omega)]
    · have hbelow : pos + k < lo := by omega
      simp [hbelow]

/-- An operand is cut away by a mask that is 0 in its place. -/
theorem place_and_eq_zero {n lo : Nat} {v : BitVec n} {mask : Word} (h : field mask lo n = 0) :
    place v lo &&& mask = 0 :=
  BitVec.eq_of_getLsbD_eq fun k hk => by
    rw [BitVec.getLsbD_and, getLsbD_place, BitVec.ofNat_eq_ofNat, BitVec.getLsbD_zero]
    by_cases hlo : k < lo
    · simp [hlo]
    by_cases hn : k - lo < n
    · have hbit := getLsbD_field (w := mask) (lo := lo) hn
      rw [h, BitVec.ofNat_eq_ofNat, BitVec.getLsbD_zero, Nat.add_sub_cancel' (Nat.le_of_not_lt hlo)] at hbit
      simp [← hbit]
    · simp [BitVec.getLsbD_of_ge v (k - lo) (Nat.le_of_not_lt hn)]

/-! ## The one-bit fields -/

/-- The Q field of a queue (R104). -/
def queueBit : QueueId → BitVec 1
  | .rx => 0
  | .tx => 1

/-- The RW field of a direction (R104). -/
def dirField : Dir → BitVec 1
  | .write => 0
  | .read => 1

theorem placeQ_eq (q : QueueId) : placeQ q = place (queueBit q) 23 := by cases q <;> rfl

theorem placeRW_eq (rw : Dir) : placeRW rw = place (dirField rw) 16 := by cases rw <;> rfl

theorem fieldQ_eq_iff {w : Word} {q : QueueId} : fieldQ w = q ↔ field w 23 1 = queueBit q := by
  have hbit : fieldQ w = if field w 23 1 = 1 then .tx else .rx := by
    rw [fieldQ, ← Nat.add_zero 23, ← getLsbD_field Nat.one_pos]
    rcases BitVec.eq_zero_or_eq_one (field w 23 1) with h | h <;> rw [h] <;> rfl
  rw [hbit]
  rcases BitVec.eq_zero_or_eq_one (field w 23 1) with h | h <;> rw [h] <;> cases q <;> decide

theorem fieldRW_eq_iff {w : Word} {rw : Dir} : fieldRW w = rw ↔ field w 16 1 = dirField rw := by
  have hbit : fieldRW w = if field w 16 1 = 1 then .read else .write := by
    rw [fieldRW, ← Nat.add_zero 16, ← getLsbD_field Nat.one_pos]
    rcases BitVec.eq_zero_or_eq_one (field w 16 1) with h | h <;> rw [h] <;> rfl
  rw [hbit]
  rcases BitVec.eq_zero_or_eq_one (field w 16 1) with h | h <;> rw [h] <;> cases rw <;> decide

/-! ## One row for each word -/

theorem mask_covers_opcode : ∀ r ∈ rows, field r.mask 24 8 = BitVec.allOnes 8 := by decide

theorem opcodes_nodup : (rows.map fun r => field r.mtch 24 8).Nodup := by decide

/-- The UNIT and OP of a word that a row matches are those of the row (R101). -/
theorem opcode_of_hits {r : Row} (hr : r ∈ rows) {w : Word} (h : Row.hits w r = true) :
    field r.mtch 24 8 = field w 24 8 := by
  rw [← eq_of_beq h, field_and, mask_covers_opcode r hr, BitVec.and_allOnes]

/-- A word that a row matches decodes to what that row builds from it: no other row has its UNIT and OP. -/
theorem decode_of_hits {r : Row} (hr : r ∈ rows) {w : Word} (h : Row.hits w r = true) :
    decode w = some (r.build w) := by
  obtain ⟨r', hfind⟩ := Option.isSome_iff_exists.1 (List.find?_isSome.2 ⟨r, hr, h⟩)
  have hr' : r' ∈ rows := List.mem_of_find?_eq_some hfind
  have hsame : r' = r := List.inj_on_of_nodup_map opcodes_nodup hr' hr
    ((opcode_of_hits hr' (List.find?_some hfind)).trans (opcode_of_hits hr h).symm)
  rw [decode, hfind, hsame]
  rfl

/-! ## The row of an operation -/

/-- The place of an operation's row in the opcode map R102. -/
def rowIndex : Instr → Fin 31
  | .nop => 0
  | .csrRead _ => 1
  | .ctrlReset => 2
  | .fifoPushWait _ _ => 3
  | .fifoPushDrop _ _ => 4
  | .fifoPop _ => 5
  | .fifoCount _ => 6
  | .rxIngress _ => 7
  | .txEgress => 8
  | .execRaise _ => 9
  | .execClear _ => 10
  | .execRead => 11
  | .alarmRaise _ => 12
  | .alarmClear => 13
  | .alarmRead => 14
  | .dispatchPeek => 15
  | .dispatchTake => 16
  | .i2cStart _ _ => 17
  | .i2cRestart _ _ => 18
  | .i2cWrite _ => 19
  | .i2cReadAck => 20
  | .i2cReadNack => 21
  | .i2cStop => 22
  | .i2cWriteReg _ _ _ => 23
  | .i2cReadReg _ _ _ => 24
  | .eeGet _ => 25
  | .eePut _ _ => 26
  | .eeWriteBlock _ _ => 27
  | .eeReadBlock _ _ => 28
  | .bufWrite _ _ => 29
  | .bufRead _ => 30

/-- The row of an operation in the opcode map R102. -/
def rowOf (i : Instr) : Row := rows[rowIndex i]

theorem rowOf_mem (i : Instr) : rowOf i ∈ rows := List.getElem_mem _

/-- Under the mask of its row, the word of an operation is the word with every field zero: each operand lies where the
mask is 0. -/
theorem hits_rowOf (i : Instr) : Row.hits (encode i) (rowOf i) = true := by
  refine beq_iff_eq.2 ?_
  cases i <;>
    simp (disch := decide) [rowOf, rowIndex, rows, rowsCtrl, rowsFifo, rowsFlag, rowsI2c, rowsEe, rowsBuf, encode,
      BitVec.and_or_distrib_right, placeQ_eq, placeRW_eq, place_and_eq_zero]

/-- The fields of the word of an operation are its operands: no two of them overlap. -/
theorem build_rowOf {i : Instr} : WellFormed i = true → (rowOf i).build (encode i) = i := by
  have zero_part {c : Word} {lo n : Nat} (a : Word) (h : field c lo n = 0) :
      field (c ||| a) lo n = field a lo n := by
    rw [field_or, h]
    exact BitVec.zero_or
  cases i <;>
    simp +contextual (disch := decide) [rowOf, rowIndex, rows, rowsCtrl, rowsFifo, rowsFlag, rowsI2c,
      rowsEe, rowsBuf, encode, zero_part, field_or, field_place_same, field_place_apart, placeQ_eq, placeRW_eq,
      fieldQ_eq_iff, fieldRW_eq_iff, WellFormed, fitsByte, fitsAddr16]

/-- A word is the word of one operation, and of that one only. -/
theorem decode_encode {i : Instr} (h : WellFormed i = true) : decode (encode i) = some i := by
  rw [decode_of_hits (rowOf_mem i) (hits_rowOf i), build_rowOf h]

end Sys2Proof

namespace Sys2Proof.Machine

/-! # What one transition of an operation changes, part by part -/

/-! ## Changes of the parts of the state -/

/-- `Q` after `enqueue(Q, d)` (R120). -/
def State.pushed (q : QueueId) (d : Byte) (s : State) : State :=
  s.setQueue ⟨Mem.write (slotSpace q).unlisted (s.queue q).mem (s.queue q).head.toNat d,
    nextPtr (capacity s.cfg q) (s.queue q).head, (s.queue q).tail⟩ q

/-- `Q` after `dequeue(Q)` (R124). -/
def State.popped (q : QueueId) (s : State) : State :=
  s.setQueue { s.queue q with tail := nextPtr (capacity s.cfg q) (s.queue q).tail } q

/-- The operations that may read a BUF byte. -/
def readsBuf : Instr → Bool
  | .bufRead _ | .i2cReadReg _ _ _ | .i2cWriteReg _ _ _ | .eeWriteBlock _ _ => true
  | _ => false

/-- The operations that may write a BUF byte. -/
def writesBuf : Instr → Bool
  | .bufWrite _ _ | .i2cReadReg _ _ _ | .eeReadBlock _ _ => true
  | _ => false

/-- One change that an operation of the I2C, EE or BUF unit makes: an answer of I2T taken, a bus event, a draw of a free
BUF byte, a BUF byte written, or a program cycle started. -/
inductive Change (i : Instr) (s : State) : State → Prop
  | answer (l : List BusAnswer) (hi : unitOf i = .i2c) : Change i s (s.setBusIn l)
  | bus (e : BusEvent) (u : I2cUnit) (hi : unitOf i = .i2c) : Change i s ((s.emitBus e).setI2c u)
  | draw (n : Nat) (hi : readsBuf i = true) : Change i s (s.setDraws n)
  | bufByte (j : Nat) (b : Byte) (hi : writesBuf i = true) (hj : j < 256) :
      Change i s (s.setBuf (Mem.write none s.buf j b))
  | cycle (a : Nat) (old v : Byte) (hi : unitOf i = .ee) (hidle : s.ee.busy = false) (ha : a < s.cfg.eeSize)
      (hold : s.peek .eemem a = some old) : Change i s (s.startCycle a (classify old v) old v)

/-- The changes of one transition, one after the other; there may be none. -/
abbrev Changes (i : Instr) : State → State → Prop := Relation.ReflTransGen (Change i)

/-- The operations that write the flags, and what they make of them. -/
inductive FlagChange (s : State) : Instr → FlagUnit → Prop
  | execRaise (m : BitVec 7) : FlagChange s (.execRaise m) (s.flag.raiseExec m)
  | execClear (m : BitVec 7) : FlagChange s (.execClear m) (s.flag.clearExec m)
  | alarmRaise (m : BitVec 6) : FlagChange s (.alarmRaise m) (s.flag.raiseAlarm m)
  | alarmClear : FlagChange s .alarmClear s.flag.clearAlarm
  | dispatchTake : FlagChange s .dispatchTake (s.flag.taken s.flag.prio)
  | rxIngress (d : Byte) (c : ExecCause) : FlagChange s (.rxIngress d) (s.flag.raiseExec (causeMask c))

/-- The operations that store `d` into queue `q`, where they do. -/
def Stores (s : State) (q : QueueId) (d : Byte) (i : Instr) : Prop :=
  i = .fifoPushWait q d ∨ i = .fifoPushDrop q d ∨ (q = .rx ∧ i = .rxIngress d ∧ rtCause s.cfg d = none)

/-- The state `u` that an operation leaves to `finish(st, x)`. In the case `quiet` it has written neither FIFO state nor
flags. -/
inductive Ends (s : State) : Instr → State → Status → Half → Prop
  | quiet {i : Instr} {u : State} (st : Status) (x : Half) (hu : Changes i s u) : Ends s i u st x
  | reset : Ends s .ctrlReset s.controllerReset .ok 0
  | flag {i : Instr} {f : FlagUnit} (st : Status) (x : Half) (hf : FlagChange s i f) : Ends s i (s.setFlag f) st x
  | stored {i : Instr} (q : QueueId) (d : Byte) (x : Half) (hi : Stores s q d i) (hfull : s.isFull q = false)
      (hhead : (s.queue q).head.toNat < capacity s.cfg q) : Ends s i ((s.pushed q d).afterStore q) .ok x
  | dropped {i : Instr} (q : QueueId) (d : Byte) (x : Half) (hi : Stores s q d i) (hfull : s.isFull q = true) :
      Ends s i (s.afterDrop q) .dropped x
  | nothingToPop (q : QueueId) (hempty : s.isEmpty q = true) :
      Ends s (.fifoPop q) (s.afterPop q) .empty Config.emptySentinel
  | taken (q : QueueId) (d : Byte) (hempty : s.isEmpty q = false)
      (hd : s.peek (slotSpace q) (s.queue q).tail.toNat = some d) :
      Ends s (.fifoPop q) ((s.popped q).afterPop q) .ok (zext16 d)
  | sent (d : Byte) (hempty : s.isEmpty .tx = false) (hd : s.peek .txmem s.fifo.tx.tail.toNat = some d) :
      Ends s .txEgress ((s.popped .tx).emitTx d) .ok (zext16 d)
  | sentFlowControl (b : Byte) (fc : FcState) (hen : s.cfg.fcEnable = true)
      (hfc : (s.fifo.fc = .sendXoff ∧ b = s.cfg.xoffChar ∧ fc = .xoffSent) ∨
        (s.fifo.fc = .sendXon ∧ b = s.cfg.xonChar ∧ fc = .xonSent)) :
      Ends s .txEgress ((s.emitTx b).setFc fc) .ok (0x100 ||| zext16 b)

/-- What the invariant says of the stage a port is at: past its first transition, the operation has a record it can
have. -/
def Stands (i : Instr) (s : State) : Prop := s.stage = .start ∨ stageFits s i s.stage

/-- What one transition of `i` from `s` can do: hold, be refused by the port table, end, or go on at a stage that the
operation can have (R13, R33, R34). -/
inductive Does (i : Instr) (s : State) : State → Prop
  | holds : Does i s (s.hold i)
  | refused (hi : allowed i s.cur = false) : Does i s (s.finish .errIllegal 0)
  | ends {u : State} {st : Status} {x : Half} (hi : allowed i s.cur = true) (hu : Ends s i u st x) :
      Does i s (u.finish st x)
  | goesOn {u : State} {st : Stage} (hi : allowed i s.cur = true) (hu : Changes i s u)
      (hst : Stands i s → stageFits u i st) : Does i s (u.await i st)

section
variable {i : Instr} {s t u : State}

/-! ## The shared operations -/

theorem body_of_onPort {o : Out} (hi : allowed i s.cur = true) (h : onPort i s o = .next t) : o = .next t :=
  (onPort_allowed hi).symm.trans h

theorem enqueue_pushed {q : QueueId} {d : Byte} {k : State → Out} (h : enqueue q d s k = .next t) :
    (s.queue q).head.toNat < capacity s.cfg q ∧ k (s.pushed q d) = .next t := by
  obtain ⟨hhead, hk⟩ := enqueue_next h
  exact ⟨hhead, by cases q <;> exact hk⟩

/-- A read of BUF leaves the state as it is or counts a draw. -/
theorem readByte_buf_changes {j : Nat} {k : Byte → State → Out} (hi : readsBuf i = true)
    (h : readByte .bufmem j s k = .next t) :
    ∃ b u, Changes i s u ∧ u.cfg = s.cfg ∧ u.ee = s.ee ∧ u.i2c = s.i2c ∧ k b u = .next t := by
  obtain ⟨-, ⟨b, -, hk⟩ | ⟨-, -, hk⟩⟩ := readByte_next h
  · exact ⟨b, s, .refl, rfl, rfl, rfl, hk⟩
  · exact ⟨_, _, .single (.draw (s.draws + 1) hi), rfl, rfl, rfl, hk⟩

theorem writeByte_buf_changes {j : Nat} {b : Byte} {k : State → Out} (hi : writesBuf i = true)
    (h : writeByte .bufmem j b s k = .next t) :
    ∃ u, Change i s u ∧ u.cfg = s.cfg ∧ u.i2c = s.i2c ∧ k u = .next t := by
  obtain ⟨hj, hk⟩ := writeByte_next h
  exact ⟨_, .bufByte j b hi hj, rfl, rfl, hk⟩

theorem zeroBuf_changes {n : Nat} {k : State → Out} (hi : writesBuf i = true) (h : zeroBuf n s k = .next t) :
    ∃ u, Changes i s u ∧ k u = .next t := by
  induction n generalizing s with
  | zero => exact ⟨s, .refl, h⟩
  | succ n ih =>
    obtain ⟨u, hu, -, -, h⟩ := writeByte_buf_changes hi h
    obtain ⟨v, hv, h⟩ := ih h
    exact ⟨v, .head hu hv, h⟩

theorem putByte_changes {a : Nat} {v : Byte} {k : Mode → State → Out} (hi : unitOf i = .ee)
    (hidle : s.ee.busy = false) (h : putByte a v s k = .next t) :
    ∃ m u, Changes i s u ∧ u.cfg = s.cfg ∧ k m u = .next t := by
  obtain ⟨ha, old, hold, ⟨-, hk⟩ | ⟨-, hk⟩⟩ := putByte_next h
  · exact ⟨_, s, .refl, rfl, hk⟩
  · exact ⟨_, _, .single (.cycle a old v hi hidle ha hold), rfl, hk⟩

/-- An operation that ends having made changes of the I2C, EE or BUF unit only. -/
theorem Does.endsQuiet {st : Status} {x : Half} (hi : allowed i s.cur = true) (hu : Changes i s u)
    (h : Host.Outcome.next (φ := Fault) (ρ := Refusal) (u.finish st x) = .next t) : Does i s t := by
  cases h; exact .ends hi (.quiet st x hu)

/-! ## Bus phases -/

/-- A bus phase: an answer is taken, and its event logged (R171, R185 to R188). -/
theorem Changes.phase (hi : unitOf i = .i2c) (l : List BusAnswer) (e : BusEvent) (u : I2cUnit) :
    Changes i s (((s.setBusIn l).emitBus e).setI2c u) :=
  .tail (.single (.answer l hi)) (.bus e u hi)

theorem startPhase_changes (hi : unitOf i = .i2c) (l : List BusAnswer) (a : BitVec 7) (rw : Dir) (r : StartAnswer) :
    Changes i s ((s.setBusIn l).startPhase a rw r) := .phase hi l _ _

theorem addrPhase_changes (hi : unitOf i = .i2c) (l : List BusAnswer) (a : BitVec 7) (rw : Dir) (r : ByteAnswer) :
    Changes i s ((s.setBusIn l).addrPhase a rw r) := .phase hi l _ _

theorem writePhase_changes (hi : unitOf i = .i2c) (l : List BusAnswer) (d : Byte) (r : ByteAnswer) :
    Changes i s ((s.setBusIn l).writePhase d r) := .phase hi l _ _

theorem readPhase_changes (hi : unitOf i = .i2c) (l : List BusAnswer) (m : ReadReply) (b : Byte) :
    Changes i s ((s.setBusIn l).readPhase m b) := .phase hi l _ _

/-! What a phase that succeeds leaves of the I2C unit. -/

theorem addrPhase_ack {a : BitVec 7} {rw : Dir} {p : Phase} {n : Bool} {bs : BusStatus} (l : List BusAnswer)
    (h : s.i2c = ⟨p, rw, n, a, bs⟩) :
    ((s.setBusIn l).addrPhase a rw .ack).i2c = ⟨.addressSent, rw, false, a, addrStatus rw .ack⟩ := by
  simp [h]

theorem writePhase_ack {a : BitVec 7} {rw : Dir} {p : Phase} {n : Bool} {bs : BusStatus} {d : Byte}
    (h : s.i2c = ⟨p, rw, n, a, bs⟩) :
    (s.writePhase d .ack).i2c = ⟨.dataPhase, rw, false, a, .dataWAck⟩ := by
  simp [h, writeStatus]

theorem readPhase_byte {a : BitVec 7} {rw : Dir} {p : Phase} {n : Bool} {bs : BusStatus} {m : ReadReply} {b : Byte}
    (h : s.i2c = ⟨p, rw, n, a, bs⟩) :
    (s.readPhase m b).i2c = ⟨.dataPhase, rw, m == .nack, a, readStatus m⟩ := by
  simp [h]

/-- A failed bus phase leaves the transaction open and nak set (R185, R186). -/
def Failed (u : State) : Prop := u.i2c.phase.isOpen = true ∧ u.i2c.nak = true

theorem startPhase_failed {a : BitVec 7} {rw : Dir} {r : StartAnswer} (hr : r ≠ .ok) : Failed (s.startPhase a rw r) :=
  ⟨rfl, bne_iff_ne.2 hr⟩

theorem addrPhase_failed {a : BitVec 7} {rw : Dir} {r : ByteAnswer} (hr : r ≠ .ack) : Failed (s.addrPhase a rw r) :=
  ⟨rfl, bne_iff_ne.2 hr⟩

theorem writePhase_failed {d : Byte} {r : ByteAnswer} (hr : r ≠ .ack) : Failed (s.writePhase d r) :=
  ⟨rfl, bne_iff_ne.2 hr⟩

/-- A bus phase of a composite goes on to `st` when its answer is the good one, and otherwise to the stop after a
failed phase (R180, R181). -/
theorem phase_does {α : Type} [DecidableEq α] {sel : BusAnswer → Option α} {good : α} {phase : α → State → State}
    {st : Stage} (hi : allowed i s.cur = true) (hphase : ∀ l r, Changes i s (phase r (s.setBusIn l)))
    (hok : ∀ l, Stands i s → stageFits (phase good (s.setBusIn l)) i st)
    (hfail : ∀ l r, r ≠ good → stageFits (phase r (s.setBusIn l)) i .abort)
    (h : onAnswer sel i s (fun r t =>
      if r = good then .next ((phase r t).await i st) else .next ((phase r t).await i .abort)) = .next t) :
    Does i s t := by
  obtain ⟨r, -, h⟩ | ⟨-, rfl⟩ := onAnswer_next h
  · split at h
    · cases h
      subst r
      exact .goesOn hi (hphase _ _) (hok _)
    · cases h
      exact .goesOn hi (hphase _ _) fun _ => hfail _ _ ‹_›
  · exact .holds

section
variable {st : Stage} (hi : allowed i s.cur = true) (hu : unitOf i = .i2c)
  (hfail : ∀ u, Failed u → stageFits u i .abort)
include hi hu hfail

theorem composeStart_does {a : BitVec 7} {rw : Dir}
    (hok : ∀ l, Stands i s → stageFits ((s.setBusIn l).startPhase a rw .ok) i st)
    (h : busStart i a rw s (fun t => .next (t.await i st)) (fun t => .next (t.await i .abort)) = .next t) :
    Does i s t :=
  phase_does (phase := State.startPhase a rw) hi (fun l r => startPhase_changes hu l a rw r) hok
    (fun _ _ hr => hfail _ (startPhase_failed hr)) h

/-- The first transition of an I2C composite (R172, R180, R181). -/
theorem composeFirst_does {a : BitVec 7} {rw : Dir}
    (hok : ∀ l, Stands i s → stageFits ((s.setBusIn l).startPhase a rw .ok) i st)
    (h : (if !s.i2c.mayCompose then .next (s.finish .i2cSeq 0)
      else busStart i a rw s (fun t => .next (t.await i st)) (fun t => .next (t.await i .abort))) = .next t) :
    Does i s t := by
  split at h
  · exact .endsQuiet hi .refl h
  · exact composeStart_does hi hu hfail hok h

theorem composeAddr_does {a : BitVec 7} {rw : Dir}
    (hok : ∀ l, Stands i s → stageFits ((s.setBusIn l).addrPhase a rw .ack) i st)
    (h : busAddr i a rw s (fun t => .next (t.await i st)) (fun t => .next (t.await i .abort)) = .next t) :
    Does i s t :=
  phase_does (phase := State.addrPhase a rw) hi (fun l r => addrPhase_changes hu l a rw r) hok
    (fun _ _ hr => hfail _ (addrPhase_failed hr)) h

theorem composeWrite_does {d : Byte} (hok : ∀ l, Stands i s → stageFits ((s.setBusIn l).writePhase d .ack) i st)
    (h : busWrite i d s (fun t => .next (t.await i st)) (fun t => .next (t.await i .abort)) = .next t) :
    Does i s t :=
  phase_does (phase := State.writePhase d) hi (fun l r => writePhase_changes hu l d r) hok
    (fun _ _ hr => hfail _ (writePhase_failed hr)) h

end

theorem busStop_does {k : State → Out} (hu : unitOf i = .i2c) (h : busStop i s k = .next t)
    (hk : ∀ u, Changes i s u → k u = .next t → Does i s t) : Does i s t := by
  obtain ⟨-, -, h⟩ | ⟨-, -, rfl⟩ | ⟨-, h⟩ := busStop_next h
  · exact hk _ (.phase hu _ _ _) h
  · exact .holds
  · exact hk _ .refl h

/-- Past its first transition, an operation of MAIN stands at a stage it can have. -/
theorem Stands.fits {st : Stage} (h : Stands i s) (hs : s.stage = st) (hst : st ≠ .start) : stageFits s i st :=
  hs ▸ h.resolve_left (hs ▸ hst)

/-! ## One operation at a time -/

/-! ### FLAG -/

theorem flagOp_does {f : FlagUnit} {st : Status} {x : Half} (hi : allowed i s.cur = true) (hf : FlagChange s i f)
    (h : onPort i s (.next ((s.setFlag f).finish st x)) = .next t) : Does i s t := by
  rw [onPort_allowed hi] at h
  cases h; exact .ends hi (.flag st x hf)

/-! ### FIFO -/

theorem execFifoPushWait_does {q : QueueId} {d : Byte} (hi : allowed (.fifoPushWait q d) s.cur = true)
    (h : execFifoPushWait q d s = .next t) : Does (.fifoPushWait q d) s t := by
  rw [execFifoPushWait, onPort_allowed hi] at h
  cases q with
  | rx => cases hi
  | tx =>
    split at h
    · rename_i hfull
      obtain ⟨hhead, h⟩ := enqueue_pushed h
      cases h
      exact .ends hi (.stored .tx d 0 (.inl rfl) (by simpa using hfull) hhead)
    · split at h
      · exact .endsQuiet hi .refl h
      · cases h; exact .holds

theorem execFifoPushDrop_does {q : QueueId} {d : Byte} (hi : allowed (.fifoPushDrop q d) s.cur = true)
    (h : execFifoPushDrop q d s = .next t) : Does (.fifoPushDrop q d) s t := by
  rw [execFifoPushDrop, onPort_allowed hi] at h
  split at h
  · rename_i hfull
    obtain ⟨hhead, h⟩ := enqueue_pushed h
    cases h
    exact .ends hi (.stored q d 0 (.inr (.inl rfl)) (by simpa using hfull) hhead)
  · rename_i hfull
    cases h
    exact .ends hi (.dropped q d 0 (.inr (.inl rfl)) (by simpa using hfull))

theorem execFifoPop_does {q : QueueId} (hi : allowed (.fifoPop q) s.cur = true)
    (h : execFifoPop q s = .next t) : Does (.fifoPop q) s t := by
  rw [execFifoPop, onPort_allowed hi] at h
  split at h
  · cases h; exact .ends hi (.nothingToPop q ‹_›)
  · obtain ⟨-, d, hd, h⟩ := dequeue_next h
    cases h; exact .ends hi (.taken q d (Bool.eq_false_iff.2 ‹_›) hd)

theorem execRxIngress_does {d : Byte} (hi : allowed (.rxIngress d) s.cur = true)
    (h : execRxIngress d s = .next t) : Does (.rxIngress d) s t := by
  rw [execRxIngress, onPort_allowed hi] at h
  split at h
  · cases h; exact .ends hi (.flag _ _ (.rxIngress d _))
  · rename_i hc
    split at h
    · rename_i hfull
      obtain ⟨hhead, h⟩ := enqueue_pushed h
      cases h
      exact .ends hi (.stored .rx d _ (.inr (.inr ⟨rfl, rfl, hc⟩)) (by simpa using hfull) hhead)
    · rename_i hfull
      cases h
      exact .ends hi (.dropped .rx d _ (.inr (.inr ⟨rfl, rfl, hc⟩)) (by simpa using hfull))

theorem execTxEgress_does (hi : allowed .txEgress s.cur = true) (h : execTxEgress s = .next t) :
    Does .txEgress s t := by
  rw [execTxEgress, onPort_allowed hi] at h
  split at h
  · rename_i hfc
    obtain ⟨hen, hxoff⟩ : s.cfg.fcEnable = true ∧ s.fifo.fc = .sendXoff := by simpa using hfc
    cases h
    exact .ends hi (.sentFlowControl _ _ hen (.inl ⟨hxoff, rfl, rfl⟩))
  · split at h
    · rename_i hfc
      obtain ⟨hen, hxon⟩ : s.cfg.fcEnable = true ∧ s.fifo.fc = .sendXon := by simpa using hfc
      cases h
      exact .ends hi (.sentFlowControl _ _ hen (.inr ⟨hxon, rfl, rfl⟩))
    · split at h
      · rename_i hempty
        obtain ⟨-, d, hd, h⟩ := dequeue_next h
        cases h; exact .ends hi (.sent d (by simpa using hempty) hd)
      · exact .endsQuiet hi .refl h

/-! ### I2C -/

/-- I2C_START and I2C_RESTART, as one transition or two (R173, R174, R185). -/
theorem startOp_does {a : BitVec 7} {rw : Dir} (hi : allowed i s.cur = true)
    (hia : i = .i2cStart a rw ∨ i = .i2cRestart a rw)
    (h : startOp i a rw s = .next t) : Does i s t := by
  have hu : unitOf i = .i2c := by rcases hia with rfl | rfl <;> rfl
  unfold startOp at h
  split at h
  · obtain ⟨-, h⟩ | ⟨r, hr, -, h⟩ | ⟨-, rfl⟩ := busAddr_next h
    · exact .endsQuiet hi (addrPhase_changes hu ..) h
    · exact .endsQuiet hi (addrPhase_changes hu ..) h
    · exact .holds
  · split at h
    · obtain rfl | ⟨r, -, -, rfl⟩ | ⟨q, -, -, rfl⟩ := startWhole_next h
      · exact .holds
      · exact .endsQuiet hi (startPhase_changes hu ..) rfl
      · exact .endsQuiet hi ((startPhase_changes hu ..).trans (addrPhase_changes hu ..)) rfl
    · obtain ⟨-, h⟩ | ⟨r, hr, -, h⟩ | ⟨-, rfl⟩ := busStart_next h
      · cases h
        refine .goesOn hi (startPhase_changes hu ..) fun _ => ?_
        rcases hia with rfl | rfl <;> exact ⟨Bool.eq_false_iff.2 ‹_›, rfl⟩
      · exact .endsQuiet hi (startPhase_changes hu ..) h
      · exact .holds

theorem execI2cWrite_does {d : Byte} (hi : allowed (.i2cWrite d) s.cur = true)
    (h : execI2cWrite d s = .next t) : Does (.i2cWrite d) s t := by
  rw [execI2cWrite, onPort_allowed hi] at h
  split at h
  · exact .endsQuiet hi .refl h
  · obtain ⟨-, h⟩ | ⟨r, -, -, h⟩ | ⟨-, rfl⟩ := busWrite_next h
    · exact .endsQuiet hi (writePhase_changes rfl ..) h
    · exact .endsQuiet hi (writePhase_changes rfl ..) h
    · exact .holds

/-- The body that I2C_READ_ACK and I2C_READ_NACK share (R176, R177). -/
theorem readByteOp_does {m : ReadReply} (hi : allowed i s.cur = true) (hu : unitOf i = .i2c)
    (h : (if !s.i2c.mayRead then .next (s.finish .i2cSeq 0)
      else busRead i m s fun b t => .next (t.finish .ok (zext16 b))) = .next t) : Does i s t := by
  split at h
  · exact .endsQuiet hi .refl h
  · obtain ⟨b, -, h⟩ | ⟨-, rfl⟩ := busRead_next h
    · exact .endsQuiet hi (readPhase_changes hu ..) h
    · exact .holds

theorem execI2cWriteReg_does {a : BitVec 7} {reg : Byte} {n : Nat} (hi : allowed (.i2cWriteReg a reg n) s.cur = true)
    (h : execI2cWriteReg a reg n s = .next t) : Does (.i2cWriteReg a reg n) s t := by
  rw [execI2cWriteReg, onPort_allowed hi] at h
  have hfail (u : State) (hu : Failed u) : stageFits u (.i2cWriteReg a reg n) .abort := hu
  cases hs : s.stage with rw [hs] at h
  | addr => exact composeAddr_does (st := .reg) hi rfl hfail (fun l hst => addrPhase_ack l (hst.fits hs (by simp))) h
  | reg =>
    exact composeWrite_does (st := .data 0) hi rfl hfail
      (fun l hst => ⟨Nat.zero_le n, writePhase_ack (s := s.setBusIn l) (hst.fits hs (by simp))⟩) h
  | data j =>
    dsimp only at h
    split at h
    · rename_i hj
      obtain ⟨r, -, h⟩ | ⟨-, rfl⟩ := onAnswer_next h
      · obtain ⟨d, u, hu, -, -, hui2c, h⟩ := readByte_buf_changes (i := .i2cWriteReg a reg n) rfl h
        cases h
        refine .goesOn hi (.tail (.head (.answer _ rfl) hu) (.bus _ _ rfl)) fun hst => ?_
        have hfit : j ≤ n ∧ s.i2c = _ := hst.fits hs (by simp)
        by_cases hr : r = .ack
        · subst hr
          exact ⟨hj, writePhase_ack (hui2c.trans hfit.2)⟩
        · rw [if_neg hr]
          exact writePhase_failed hr
      · exact .holds
    · exact busStop_does rfl h fun u hu h => .endsQuiet hi hu h
  | abort => exact busStop_does rfl h fun u hu h => .endsQuiet hi hu h
  | _ => exact composeFirst_does (st := .addr) hi rfl hfail (fun _ _ => rfl) h

theorem execI2cReadReg_does {a : BitVec 7} {reg : Byte} {n : Nat} (hi : allowed (.i2cReadReg a reg n) s.cur = true)
    (h : execI2cReadReg a reg n s = .next t) : Does (.i2cReadReg a reg n) s t := by
  rw [execI2cReadReg, onPort_allowed hi] at h
  split at h
  · exact .endsQuiet hi .refl h
  rename_i hn
  have hfail (u : State) (hu : Failed u) : stageFits u (.i2cReadReg a reg n) .abort := ⟨hn, hu⟩
  cases hs : s.stage with rw [hs] at h
  | addr =>
    refine composeAddr_does hi rfl hfail (fun l hst => ?_) h
    obtain ⟨-, hfit⟩ := hst.fits hs (by simp)
    exact ⟨hn, addrPhase_ack l hfit⟩
  | reg =>
    refine composeWrite_does hi rfl hfail (fun l hst => ?_) h
    obtain ⟨-, hfit⟩ := hst.fits hs (by simp)
    exact ⟨hn, writePhase_ack (s := s.setBusIn l) hfit⟩
  | restart => exact composeStart_does (st := .raddr) hi rfl hfail (fun l hst => ⟨hn, rfl⟩) h
  | raddr =>
    refine composeAddr_does hi rfl hfail (fun l hst => ?_) h
    obtain ⟨-, hfit⟩ := hst.fits hs (by simp)
    refine ⟨hn, Nat.zero_le n, (addrPhase_ack l hfit).trans ?_⟩
    simp [Ne.symm hn]
  | data j =>
    dsimp only at h
    split at h
    · rename_i hj
      obtain ⟨b, -, h⟩ | ⟨-, rfl⟩ := busRead_next h
      · obtain ⟨u, hu, -, hui2c, h⟩ := writeByte_buf_changes (i := .i2cReadReg a reg n) rfl h
        cases h
        refine .goesOn hi (.tail (readPhase_changes rfl ..) hu) fun hst => ?_
        obtain ⟨-, -, hfit⟩ := hst.fits hs (by simp)
        have hread := hui2c.trans (readPhase_byte (s := s.setBusIn _) hfit)
        refine ⟨hn, hj, ?_⟩
        rw [hread]
        by_cases hmore : j + 1 < n
        · simp [hmore, hmore.ne]
        · obtain rfl : n = j + 1 := by omega
          simp
      · exact .holds
    · exact busStop_does rfl h fun u hu h => by
        obtain ⟨d, v, hv, -, -, -, h⟩ := readByte_buf_changes (i := .i2cReadReg a reg n) rfl h
        exact .endsQuiet hi (hu.trans hv) h
  | abort =>
    exact busStop_does rfl h fun u hu h => by
      obtain ⟨v, hv, h⟩ := zeroBuf_changes (i := .i2cReadReg a reg n) rfl h
      exact .endsQuiet hi (hu.trans hv) h
  | _ => exact composeFirst_does (st := .addr) hi rfl hfail (fun _ _ => ⟨hn, rfl⟩) h

/-! ### EE -/

theorem execEeGet_does {a : Nat} (hi : allowed (.eeGet a) s.cur = true) (h : execEeGet a s = .next t) :
    Does (.eeGet a) s t := by
  rw [execEeGet, onPort_allowed hi] at h
  split at h
  · exact .endsQuiet hi .refl h
  · obtain ⟨-, rfl⟩ | ⟨-, h⟩ := whenIdle_next h
    · exact .holds
    · obtain ⟨-, ⟨d, -, h⟩ | ⟨hsp, -⟩⟩ := readByte_next h
      · exact .endsQuiet hi .refl h
      · cases hsp

theorem execEePut_does {a : Nat} {v : Byte} (hi : allowed (.eePut a v) s.cur = true)
    (h : execEePut a v s = .next t) : Does (.eePut a v) s t := by
  rw [execEePut, onPort_allowed hi] at h
  split at h
  · exact .endsQuiet hi .refl h
  · obtain ⟨-, rfl⟩ | ⟨hidle, h⟩ := whenIdle_next h
    · exact .holds
    · obtain ⟨m, u, hu, -, h⟩ := putByte_changes (i := .eePut a v) rfl hidle h
      exact .endsQuiet hi hu h

theorem execEeWriteBlock_does {a len : Nat} (hi : allowed (.eeWriteBlock a len) s.cur = true)
    (h : execEeWriteBlock a len s = .next t) : Does (.eeWriteBlock a len) s t := by
  rw [execEeWriteBlock, onPort_allowed hi] at h
  split at h
  · exact .endsQuiet hi .refl h
  rename_i hrange
  obtain ⟨-, rfl⟩ | ⟨hidle, h⟩ := whenIdle_next h
  · exact .holds
  split at h
  · rename_i hj
    obtain ⟨d, u, hu, hucfg, huee, -, h⟩ := readByte_buf_changes (i := .eeWriteBlock a len) rfl h
    obtain ⟨m, v, hv, hvcfg, h⟩ := putByte_changes (i := .eeWriteBlock a len) rfl (huee ▸ hidle) h
    cases h
    refine .goesOn hi (hu.trans hv) fun _ => ⟨Nat.succ_pos _, hj, ?_⟩
    rw [hvcfg, hucfg]
    simpa [blockInEeprom] using hrange
  · obtain ⟨m, u, hu, -, h⟩ := putByte_changes (i := .eeWriteBlock a len) rfl hidle h
    exact .endsQuiet hi hu h

theorem execEeReadBlock_does {a len : Nat} (hi : allowed (.eeReadBlock a len) s.cur = true)
    (h : execEeReadBlock a len s = .next t) : Does (.eeReadBlock a len) s t := by
  rw [execEeReadBlock, onPort_allowed hi] at h
  split at h
  · exact .endsQuiet hi .refl h
  rename_i hrange
  obtain ⟨-, rfl⟩ | ⟨hidle, h⟩ := whenIdle_next h
  · exact .holds
  split at h
  · rename_i hj
    obtain ⟨-, ⟨d, -, h⟩ | ⟨hsp, -⟩⟩ := readByte_next h
    · obtain ⟨u, hu, hucfg, -, h⟩ := writeByte_buf_changes (i := .eeReadBlock a len) rfl h
      cases h
      refine .goesOn hi (.single hu) fun _ => ⟨Nat.succ_pos _, hj, ?_⟩
      rw [hucfg]
      simpa [blockInEeprom] using hrange
    · cases hsp
  · obtain ⟨-, ⟨d, -, h⟩ | ⟨hsp, -⟩⟩ := readByte_next h
    · exact .endsQuiet hi .refl h
    · cases hsp

/-! ### All operations -/

theorem exec_of_refused (hi : allowed i s.cur = false) : exec i s = .next (s.finish .errIllegal 0) := by
  cases i <;> exact onPort_refused hi

/-- Everything one transition of an operation can do. -/
theorem exec_does (h : exec i s = .next t) : Does i s t := by
  cases hi : allowed i s.cur with
  | false =>
    rw [exec_of_refused hi] at h
    cases h; exact .refused hi
  | true =>
    cases i with
    | nop => exact .endsQuiet hi .refl (body_of_onPort hi h)
    | csrRead j =>
      rw [exec, execCsrRead, onPort_allowed hi] at h
      split at h <;> exact .endsQuiet hi .refl h
    | ctrlReset =>
      rw [exec, execCtrlReset, onPort_allowed hi] at h
      cases h; exact .ends hi .reset
    | fifoPushWait q d => exact execFifoPushWait_does hi h
    | fifoPushDrop q d => exact execFifoPushDrop_does hi h
    | fifoPop q => exact execFifoPop_does hi h
    | fifoCount q => exact .endsQuiet hi .refl (body_of_onPort hi h)
    | rxIngress d => exact execRxIngress_does hi h
    | txEgress => exact execTxEgress_does hi h
    | execRaise m => exact flagOp_does hi (.execRaise m) h
    | execClear m => exact flagOp_does hi (.execClear m) h
    | execRead => exact .endsQuiet hi .refl (body_of_onPort hi h)
    | alarmRaise m => exact flagOp_does hi (.alarmRaise m) h
    | alarmClear => exact flagOp_does hi .alarmClear h
    | alarmRead => exact .endsQuiet hi .refl (body_of_onPort hi h)
    | dispatchPeek => exact .endsQuiet hi .refl (body_of_onPort hi h)
    | dispatchTake => exact flagOp_does hi .dispatchTake h
    | i2cStart a rw => exact startOp_does hi (.inl rfl) (body_of_onPort hi h)
    | i2cRestart a rw => exact startOp_does hi (.inr rfl) (body_of_onPort hi h)
    | i2cWrite d => exact execI2cWrite_does hi h
    | i2cReadAck => exact readByteOp_does hi rfl (body_of_onPort hi h)
    | i2cReadNack => exact readByteOp_does hi rfl (body_of_onPort hi h)
    | i2cStop => exact busStop_does rfl (body_of_onPort hi h) fun u hu h => .endsQuiet hi hu h
    | i2cWriteReg a reg n => exact execI2cWriteReg_does hi h
    | i2cReadReg a reg n => exact execI2cReadReg_does hi h
    | eeGet a => exact execEeGet_does hi h
    | eePut a v => exact execEePut_does hi h
    | eeWriteBlock a len => exact execEeWriteBlock_does hi h
    | eeReadBlock a len => exact execEeReadBlock_does hi h
    | bufWrite j d =>
      obtain ⟨u, hu, -, -, h⟩ := writeByte_buf_changes (i := .bufWrite j d) rfl (body_of_onPort hi h)
      exact .endsQuiet hi (.single hu) h
    | bufRead j =>
      obtain ⟨d, u, hu, -, -, -, h⟩ := readByte_buf_changes (i := .bufRead j) rfl (body_of_onPort hi h)
      exact .endsQuiet hi hu h

end

end Sys2Proof.Machine

namespace Sys2Proof.Machine

/-! # Frames (10_state.md R32, R53, R54, R58; 60_exceptions.md R262) -/

/-- The parts of the state that `i` may not change are in `t` as in `s`. -/
structure UnitFrame (i : Instr) (s t : State) : Prop where
  around : SameAround s t
  txLine : unitOf i ≠ .fifo → t.logs.txLine = s.logs.txLine
  fifo : unitOf i ≠ .fifo → i ≠ .ctrlReset → t.fifo = s.fifo
  flag : unitOf i ≠ .flag → i ≠ .ctrlReset → (∀ d, i ≠ .rxIngress d) → t.flag = s.flag
  i2c : unitOf i ≠ .i2c → t.i2c = s.i2c ∧ t.logs.busLog = s.logs.busLog ∧ t.busIn = s.busIn
  ee : unitOf i ≠ .ee → t.ee = s.ee ∧ t.logs.eeLog = s.logs.eeLog
  buf : writesBuf i = false → t.buf = s.buf
  draws : readsBuf i = false → t.draws = s.draws

section
variable {i : Instr} {s t u : State}

theorem UnitFrame.refl (i : Instr) (s : State) : UnitFrame i s s where
  around := ⟨rfl, rfl, rfl, rfl⟩
  txLine _ := rfl
  fifo _ _ := rfl
  flag _ _ _ := rfl
  i2c _ := ⟨rfl, rfl, rfl⟩
  ee _ := ⟨rfl, rfl⟩
  buf _ := rfl
  draws _ := rfl

theorem UnitFrame.trans (h : UnitFrame i s t) (h' : UnitFrame i t u) : UnitFrame i s u where
  around := by
    obtain ⟨hcfg, hprog, hsched, hcur⟩ := h.around
    obtain ⟨hcfg', hprog', hsched', hcur'⟩ := h'.around
    exact ⟨hcfg'.trans hcfg, hprog'.trans hprog, hsched'.trans hsched, hcur'.trans hcur⟩
  txLine hi := (h'.txLine hi).trans (h.txLine hi)
  fifo hi hr := (h'.fifo hi hr).trans (h.fifo hi hr)
  flag hi hr hd := (h'.flag hi hr hd).trans (h.flag hi hr hd)
  i2c hi := by
    obtain ⟨hu, hlog, hin⟩ := h.i2c hi
    obtain ⟨hu', hlog', hin'⟩ := h'.i2c hi
    exact ⟨hu'.trans hu, hlog'.trans hlog, hin'.trans hin⟩
  ee hi := by
    obtain ⟨hu, hlog⟩ := h.ee hi
    obtain ⟨hu', hlog'⟩ := h'.ee hi
    exact ⟨hu'.trans hu, hlog'.trans hlog⟩
  buf hi := (h'.buf hi).trans (h.buf hi)
  draws hi := (h'.draws hi).trans (h.draws hi)

theorem UnitFrame.cfg_eq (h : UnitFrame i s t) : t.cfg = s.cfg := h.around.1

theorem UnitFrame.cur_eq (h : UnitFrame i s t) : t.cur = s.cur := h.around.2.2.2

theorem Change.unitFrame (h : Change i s t) : UnitFrame i s t := by
  have same := UnitFrame.refl i s
  cases h with
  | answer l hi => exact { same with i2c := fun h => absurd hi h }
  | bus e u hi => exact { same with i2c := fun h => absurd hi h }
  | draw n hi => exact { same with draws := fun h => absurd hi (by simp [h]) }
  | bufByte j b hi hj => exact { same with buf := fun h => absurd hi (by simp [h]) }
  | cycle a old v hi => exact { same with ee := fun h => absurd hi h }

theorem Changes.unitFrame (h : Changes i s t) : UnitFrame i s t := by
  induction h with
  | refl => exact .refl i s
  | tail _ hu ih => exact ih.trans hu.unitFrame

/-- Operations of the I2C, EE and BUF unit write neither FIFO state nor flags. -/
theorem Changes.fifo_flag (h : Changes i s t) : t.fifo = s.fifo ∧ t.flag = s.flag := by
  induction h with
  | refl => exact ⟨rfl, rfl⟩
  | tail _ hu ih => cases hu <;> exact ih

/-! ## Flow-control marks and the serial line -/

/-- Nothing but RX_OVF and FC_STATE has changed, and FC_STATE only with FC_ENABLE (R42, R138, R139, R141). -/
def Marked (s t : State) : Prop :=
  ∃ b fc, (fc = s.fifo.fc ∨ s.cfg.fcEnable = true) ∧ t = s.setFifo { s.fifo with rxOvf := b, fc := fc }

theorem setFc_marked (h : s.cfg.fcEnable = true) (fc : FcState) : Marked s (s.setFc fc) := ⟨_, fc, .inr h, rfl⟩

theorem Marked.refl (s : State) : Marked s s := ⟨_, _, .inl rfl, rfl⟩

theorem afterStore_marked (q : QueueId) : Marked s (s.afterStore q) := by
  cases q with
  | tx => exact .refl s
  | rx =>
    show Marked s s.rxStored
    unfold State.rxStored
    split
    · have hfc : s.cfg.fcEnable = true := by simp_all
      exact setFc_marked hfc _
    · exact .refl s

theorem afterPop_marked (q : QueueId) : Marked s (s.afterPop q) := by
  cases q with
  | tx => exact .refl s
  | rx =>
    show Marked s s.rxPopped
    unfold State.rxPopped
    split
    · have hfc : s.cfg.fcEnable = true := by simp_all
      exact setFc_marked hfc _
    · exact .refl s

theorem afterDrop_marked (q : QueueId) : Marked s (s.afterDrop q) := by
  cases q with
  | tx => exact .refl s
  | rx => exact ⟨true, _, .inl rfl, rfl⟩

/-- Nothing but the FIFO state and TX_LINE has changed. -/
def SerialOnly (s t : State) : Prop := ∃ f l, t = (s.setFifo f).setLogs { s.logs with txLine := l }

theorem SerialOnly.trans (h : SerialOnly s t) (h' : SerialOnly t u) : SerialOnly s u := by
  obtain ⟨f, l, rfl⟩ := h
  obtain ⟨f', l', rfl⟩ := h'
  exact ⟨f', l', rfl⟩

theorem setFifo_serialOnly (f : FifoUnit) : SerialOnly s (s.setFifo f) := ⟨f, s.logs.txLine, rfl⟩

theorem Marked.serialOnly (h : Marked s t) : SerialOnly s t := by
  obtain ⟨b, fc, -, rfl⟩ := h
  exact setFifo_serialOnly _

theorem setQueue_serialOnly (x : Queue) (q : QueueId) : SerialOnly s (s.setQueue x q) := by
  cases q <;> exact setFifo_serialOnly _

theorem emitTx_serialOnly (b : Byte) : SerialOnly s (s.emitTx b) := ⟨_, _, rfl⟩

theorem SerialOnly.unitFrame (h : SerialOnly s t) (hi : unitOf i = .fifo) : UnitFrame i s t := by
  obtain ⟨f, l, rfl⟩ := h
  exact { UnitFrame.refl i s with txLine := fun h => absurd hi h, fifo := fun h => absurd hi h }

theorem Stores.unit_fifo {q : QueueId} {d : Byte} (h : Stores s q d i) : unitOf i = .fifo := by
  rcases h with rfl | rfl | ⟨-, rfl, -⟩ <;> rfl

/-- The parts of the state that an operation that ends has written, by its unit. -/
inductive PartsChanged (i : Instr) (s : State) : State → Prop
  | quiet {u : State} (hu : Changes i s u) : PartsChanged i s u
  | reset (hi : i = .ctrlReset) : PartsChanged i s s.controllerReset
  | flag {f : FlagUnit} (hf : FlagChange s i f) : PartsChanged i s (s.setFlag f)
  | serial {u : State} (hi : unitOf i = .fifo) (hu : SerialOnly s u) : PartsChanged i s u

theorem Ends.partsChanged {st : Status} {x : Half} (h : Ends s i u st x) : PartsChanged i s u := by
  cases h with
  | quiet _ _ hu => exact .quiet hu
  | reset => exact .reset rfl
  | flag _ _ hf => exact .flag hf
  | stored q d _ hi => exact .serial hi.unit_fifo ((setQueue_serialOnly _ q).trans (afterStore_marked q).serialOnly)
  | dropped q d _ hi => exact .serial hi.unit_fifo (afterDrop_marked q).serialOnly
  | nothingToPop q => exact .serial rfl (afterPop_marked q).serialOnly
  | taken q d => exact .serial rfl ((setQueue_serialOnly _ q).trans (afterPop_marked q).serialOnly)
  | sent d => exact .serial rfl ((setQueue_serialOnly _ .tx).trans (emitTx_serialOnly d))
  | sentFlowControl b fc hen =>
    exact .serial rfl ((emitTx_serialOnly b).trans (setFc_marked (s := s.emitTx b) hen fc).serialOnly)

theorem FlagChange.unit_flag_or_ingress {f : FlagUnit} (h : FlagChange s i f) :
    unitOf i = .flag ∨ ∃ d, i = .rxIngress d := by
  cases h with
  | rxIngress d c => exact .inr ⟨d, rfl⟩
  | _ => exact .inl rfl

theorem PartsChanged.unitFrame (h : PartsChanged i s u) : UnitFrame i s u := by
  have same := UnitFrame.refl i s
  cases h with
  | quiet hu => exact hu.unitFrame
  | reset hi => exact { same with fifo := fun _ h => absurd hi h, flag := fun _ h => absurd hi h }
  | flag hf =>
    refine { same with flag := fun hi _ hd => ?_ }
    obtain h | ⟨d, h⟩ := hf.unit_flag_or_ingress
    · exact absurd h hi
    · exact absurd h (hd d)
  | serial hi hu => exact hu.unitFrame hi

theorem Does.unitFrame (h : Does i s t) : UnitFrame i s t := by
  cases h with
  | holds => exact { UnitFrame.refl i s with }
  | refused => exact { UnitFrame.refl i s with }
  | ends _ hu => exact hu.partsChanged.unitFrame.trans { UnitFrame.refl i _ with }
  | goesOn _ hu => exact hu.unitFrame.trans { UnitFrame.refl i _ with }

/-! ## The registers of the other ports -/

/-- The result, PEND and ip of every port but the issuing one are as before. -/
def OtherPortsKept (s t : State) : Prop :=
  ∀ p, p ≠ s.cur → t.res.get p = s.res.get p ∧ t.pend.get p = s.pend.get p ∧ t.ip.get p = s.ip.get p

theorem Ended.otherPortsKept {st : Status} {x : Half} (h : Ended s t st x) : OtherPortsKept s t := by
  obtain ⟨hres, hpend, hip⟩ := h
  exact fun p hp => by simp [hres, hpend, hip, PerPort.get_set_other _ _ _ _ hp]

theorem GoesOn.otherPortsKept {st : Stage} (h : GoesOn i s t st) : OtherPortsKept s t := by
  obtain ⟨hres, hpend, hip⟩ := h
  exact fun p hp => by simp [hres, hpend, hip, PerPort.get_set_other _ _ _ _ hp]

theorem exec_otherPortsKept (h : exec i s = .next t) : OtherPortsKept s t := by
  cases hw : s.holds i with
  | true =>
    rw [exec_of_holds hw] at h
    cases h
    exact GoesOn.otherPortsKept (i := i) ⟨rfl, rfl, rfl⟩
  | false =>
    obtain ⟨st, x, hend⟩ | ⟨-, st, -, hgo⟩ := moved_of_not_holds hw h
    · exact hend.otherPortsKept
    · exact hgo.otherPortsKept

/-- Settles O13: the frame of each change that a transition is made of. -/
theorem unitFrames : Obligations.UnitFrames := by
  intro i s t h
  obtain ⟨around, txLine, fifo, flag, i2c, ee, buf, draws⟩ := (exec_does h).unitFrame
  refine ⟨around, exec_otherPortsKept h, fun hi => ⟨txLine hi, fifo hi⟩, flag, i2c, ee, fun h1 h2 h3 => buf ?_,
    fun h1 h2 h3 h4 => draws ?_⟩
  · cases i with
    | bufWrite j d => exact absurd rfl (h1 j d)
    | i2cReadReg a r n => exact absurd rfl (h2 a r n)
    | eeReadBlock a n => exact absurd rfl (h3 a n)
    | _ => rfl
  · cases i with
    | bufRead j => exact absurd rfl (h1 j)
    | i2cReadReg a r n => exact absurd rfl (h2 a r n)
    | i2cWriteReg a r n => exact absurd rfl (h3 a r n)
    | eeWriteBlock a n => exact absurd rfl (h4 a n)
    | _ => rfl

/-! # The alarm (10_state.md R46, R47) -/

/-- ALARM as R46 lets an operation leave it, and ALARM_PENDING as R47 does. -/
theorem FlagChange.alarm {f : FlagUnit} (h : FlagChange s i f) :
    (f.alarm = s.flag.alarm ∨ (∃ m, i = .alarmRaise m ∧ f.alarm = s.flag.alarm ||| m) ∨
      ((i = .alarmClear ∨ i = .ctrlReset) ∧ f.alarm = 0)) ∧
    (f.pending = s.flag.pending ∨ (∃ m, i = .alarmRaise m ∧ m ≠ 0 ∧ f.pending = true) ∨
      (((i = .dispatchTake ∧ s.flag.prio = .alarm) ∨ i = .alarmClear ∨ i = .ctrlReset) ∧ f.pending = false)) := by
  cases h with
  | execRaise m => exact ⟨.inl rfl, .inl rfl⟩
  | execClear m => exact ⟨.inl rfl, .inl rfl⟩
  | rxIngress d c => exact ⟨.inl rfl, .inl rfl⟩
  | alarmClear => exact ⟨.inr (.inr ⟨.inl rfl, rfl⟩), .inr (.inr ⟨.inr (.inl rfl), rfl⟩)⟩
  | alarmRaise m =>
    refine ⟨.inr (.inl ⟨m, rfl, rfl⟩), ?_⟩
    by_cases hm : m = 0
    · exact .inl (by simp [FlagUnit.raiseAlarm, hm])
    · exact .inr (.inl ⟨m, rfl, hm, Bool.or_eq_true_iff.2 (.inr (bne_iff_ne.2 hm))⟩)
  | dispatchTake =>
    cases s.flag.prio with
    | none => exact ⟨.inl rfl, .inl rfl⟩
    | alarm => exact ⟨.inl rfl, .inr (.inr ⟨.inl ⟨rfl, rfl⟩, rfl⟩)⟩
    | exec c => exact ⟨.inl rfl, .inl rfl⟩

/-- A transition leaves the flags as they are, changes them by a FLAG operation or RX_INGRESS, or resets them. -/
theorem Does.flag_cases (h : Does i s t) :
    t.flag = s.flag ∨ FlagChange s i t.flag ∨ (i = .ctrlReset ∧ t.flag = ⟨0, 0, false⟩) := by
  cases h with
  | holds => exact .inl rfl
  | refused => exact .inl rfl
  | goesOn _ hu => exact .inl hu.fifo_flag.2
  | ends _ hu =>
    cases hu.partsChanged with
    | quiet hu => exact .inl hu.fifo_flag.2
    | reset hi => exact .inr (.inr ⟨hi, rfl⟩)
    | flag hf => exact .inr (.inl hf)
    | serial _ hu =>
      obtain ⟨f, l, rfl⟩ := hu
      exact .inl rfl

/-- Settles O18: the flag operations one by one, and the reset. -/
theorem alarmWriters : Obligations.AlarmWriters := by
  intro i s t h
  obtain h | h | ⟨hi, h⟩ := (exec_does h).flag_cases
  · rw [h]; exact ⟨.inl rfl, .inl rfl⟩
  · exact h.alarm
  · rw [h]; exact ⟨.inr (.inr ⟨.inr hi, rfl⟩), .inr (.inr ⟨.inr (.inr hi), rfl⟩)⟩

end

end Sys2Proof.Machine

namespace Sys2Proof.Machine

/-! # The port table and the step (10_state.md R31, R33, R34) -/

/-- Settles O7: the table entry by entry, and the port check of every operation. -/
theorem portTableRefuses : Obligations.PortTableRefuses := by
  refine ⟨fun i p => ?_, fun i s hi => exec_of_refused hi⟩
  cases i with
  | fifoPushWait q d => cases q <;> simp [allowed]
  | fifoPushDrop q d => cases q <;> simp [allowed]
  | fifoPop q => cases q <;> simp [allowed]
  | _ => simp [allowed]

section
variable {i : Instr} {s t : State} {p : Port} {rest : List Agent}

/-- A port with an operation in progress takes its next transition. -/
theorem step_of_pending {r : Pending} (hs : s.sched = .port p :: rest) (hr : s.pend.get p = some r)
    (hi : decode r.word = some i) : step s = exec i { s with sched := rest, cur := p } := by
  have hissue : ((s.setSched rest).setCur p).issue = .run i ((s.setSched rest).setCur p) := by
    simp [State.issue, hr, State.decoded_run hi]
  simp only [step, hs, hissue]
  rfl

/-- A port between operations issues the next word of its program. -/
theorem step_of_word {w : Word} {ws : List Word} (hs : s.sched = .port p :: rest) (hp : s.pend.get p = none)
    (hw : s.prog.get p = w :: ws) (hi : decode w = some i) :
    step s = exec i { s with sched := rest, cur := p, prog := s.prog.set p ws } := by
  have hissue : ((s.setSched rest).setCur p).issue =
      .run i (((s.setSched rest).setCur p).setProg (s.prog.set p ws)) := by
    simp [State.issue, hp, hw, State.decoded_run hi]
  simp only [step, hs, hissue]
  rfl

theorem step_of_no_word (hs : s.sched = .port p :: rest) (hp : s.pend.get p = none) (hw : s.prog.get p = []) :
    step s = .next { s with sched := rest, cur := p } := by
  have hissue : ((s.setSched rest).setCur p).issue = .idle ((s.setSched rest).setCur p) := by
    simp [State.issue, hp, hw]
  simp only [step, hs, hissue]
  rfl

end

/-- Settles O6: the schedule's head, and what the port issues. -/
theorem stepRunsIssuedWord : Obligations.StepRunsIssuedWord := by
  refine fun s => ⟨fun hs => by rw [step, hs], fun rest hs => by rw [step, hs]; rfl, fun p rest hs => ⟨?_, ?_, ?_⟩⟩
  · exact fun r i hr hi => step_of_pending hs hr hi
  · exact fun w ws i hp hw hi => step_of_word hs hp hw hi
  · exact step_of_no_word hs

/-! # Power-on (10_state.md R60; 20_memory.md R72) -/

/-- Power-on under legal parameters meets the invariant. -/
theorem inv_por {c : Params} (hc : ParamsOk c) : (State.por c).Inv where
  cfg := hc
  rxPointers := ⟨Nat.lt_of_lt_of_le Nat.two_pos hc.cRx.1, Nat.lt_of_lt_of_le Nat.two_pos hc.cRx.1⟩
  txPointers := ⟨Nat.lt_of_lt_of_le Nat.two_pos hc.cTx.1, Nat.lt_of_lt_of_le Nat.two_pos hc.cTx.1⟩
  mem := State.mem_wf_por hc.eeInit
  flowControl _ := rfl
  alarmLatch h := by cases h
  eeIdle _ := rfl
  eeAddr h := by cases h
  eeValue h := by cases h
  statuses p := by cases p <;> exact List.mem_cons_self
  pendOthers p _ := by cases p <;> rfl
  pendMain r h := by cases h

theorem paramsOk_defaults : ParamsOk Config.defaults where
  cRx := by decide
  cTx := by decide
  marks := by decide
  eeSize := by decide
  eeInit := by decide
  rtTable := by decide

/-- The contents of EEMEM are an EE_INIT of the same size. -/
theorem paramsOk_eeInit {s : State} (h : s.Inv) : ParamsOk { s.cfg with eeInit := s.ee.mem } :=
  { h.cfg with eeInit := h.mem .eemem }

/-- Settles O9: power-on meets the invariant, and a power cycle is a power-on with EEMEM for EE_INIT. -/
theorem powerOnMeetsInvariant : Obligations.PowerOnMeetsInvariant := by
  refine ⟨fun c => inv_por, inv_por paramsOk_defaults, fun s hs hidle => ?_⟩
  refine ⟨(State.por { s.cfg with eeInit := s.ee.mem }).setDraws s.draws, by simp [State.powerCycle, hidle], ?_, rfl,
    fun a => State.peek_congr rfl a⟩
  exact { inv_por (paramsOk_eeInit hs) with }

/-! # Queue geometry (10_state.md R39, R40) -/

theorem Queue.count_eq_emod {c : Nat} {u : Queue} (h : u.InRange c) :
    (u.count c : Int) = ((u.head.toNat : Int) - u.tail.toNat) % c := by
  obtain ⟨hhead, htail⟩ := h
  unfold Queue.count
  split
  · rw [Int.emod_eq_of_lt (by omega) (by omega)]
    omega
  · rw [← Int.add_emod_right, Int.emod_eq_of_lt (by omega) (by omega)]
    omega

theorem Queue.isEmpty_iff_count {c : Nat} {u : Queue} (h : u.InRange c) : u.isEmpty = true ↔ u.count c = 0 := by
  obtain ⟨hhead, htail⟩ := h
  rw [Queue.isEmpty_iff]
  unfold Queue.count
  split <;> omega

theorem Queue.isFull_iff_count {c : Nat} {u : Queue} (hc : 2 ≤ c) (hc' : c ≤ 256) (h : u.InRange c) :
    u.isFull c = true ↔ u.count c = c - 1 := by
  obtain ⟨hhead, htail⟩ := h
  rw [Queue.isFull_iff hc' hhead]
  unfold Queue.count
  split <;> split <;> omega

/-- Settles O20: the successor of a pointer, and the three forms of the occupancy. -/
theorem pointersAndOccupancy : Obligations.PointersAndOccupancy := by
  refine ⟨fun c x => nextPtr_toNat, fun c u hc hc' h => ⟨by simp [Queue.isEmpty], by simp [Queue.isFull], ?_, rfl, ?_,
    Queue.isEmpty_iff_count h, Queue.isFull_iff_count hc hc' h⟩⟩
  · exact Queue.count_eq_emod h
  · exact Nat.le_sub_one_of_lt (Queue.count_lt h)

/-! # The level outputs (10_state.md R57; 60_exceptions.md R252) -/

theorem getLsbD_bitAt {b : Bool} {j k : Nat} (hk : k < 16) : (bitAt b k).getLsbD j = (b && decide (j = k)) := by
  cases b with
  | false => simp [bitAt]
  | true =>
    have hbit : bitAt true k = BitVec.twoPow 16 k := rfl
    rw [hbit, BitVec.getLsbD_twoPow]
    simp [hk, eq_comm]

theorem LevelOutputs.getLsbD_bits (o : LevelOutputs) (k : Nat) :
    o.bits.getLsbD k = (o.rxOvf && decide (k = 0) || o.eeBusy && decide (k = 1) || o.alarm && decide (k = 2) ||
      o.event && decide (k = 3) || o.rxne && decide (k = 4) || o.txp && decide (k = 5)) := by
  simp only [LevelOutputs.bits, BitVec.getLsbD_or, getLsbD_bitAt, Nat.reduceLT]

/-- EXEC is 0 exactly when it has no cause (R45). -/
theorem exec_eq_zero_iff (f : FlagUnit) : f.exec = 0 ↔ ∀ c, f.has c = false := by
  refine ⟨fun h c => by simp [FlagUnit.has, h], fun h => BitVec.eq_of_getLsbD_eq fun k hk => ?_⟩
  rw [BitVec.ofNat_eq_ofNat, BitVec.getLsbD_zero]
  interval_cases k
  · exact h .statusReport
  · exact h .cycleStart
  · exact h .cycleStop
  · exact h .feedHold
  · exact h .reset
  · exact h .safetyDoor
  · exact h .motionCancel

/-- The dispatcher has no cause to return exactly when EXEC has none and no alarm is pending (R162). -/
theorem prio_eq_none_iff (f : FlagUnit) : f.prio = .none ↔ f.exec = 0 ∧ f.pending = false := by
  rw [exec_eq_zero_iff]
  constructor
  · intro h
    unfold FlagUnit.prio at h
    split_ifs at h
    exact ⟨fun c => by cases c <;> exact Bool.eq_false_iff.2 ‹_›, Bool.eq_false_iff.2 ‹_›⟩
  · rintro ⟨hexec, hpending⟩
    simp [FlagUnit.prio, hexec, hpending]

/-- Settles O59: the bits of STATUS are the outputs, and each output is its condition. -/
theorem levelOutputsAreStatusBits : Obligations.LevelOutputsAreStatusBits := by
  intro s
  have hbit (k : Nat) : (csr s 0x07).getLsbD k = s.outputs.bits.getLsbD k := rfl
  have hprio : s.flag.prio ≠ .none ↔ s.flag.exec ≠ 0 ∨ s.flag.pending = true := by
    rw [Ne, prio_eq_none_iff, not_and_or, Bool.not_eq_false]
  have hfc : s.fifo.fc.isPending = true ↔ s.fifo.fc = .sendXoff ∨ s.fifo.fc = .sendXon := by
    cases s.fifo.fc <;> simp [FcState.isPending]
  simp only [hbit, LevelOutputs.getLsbD_bits, hprio]
  simp [State.outputs, hfc]

end Sys2Proof.Machine

namespace Sys2Proof.Machine

/-! # What an operation does to a queue (10_state.md R38, R41; 40_fifo.md R125, R134) -/

section
variable {i : Instr} {s t u : State} {q r : QueueId}

/-! ## The queues after each change -/

theorem Marked.queue (h : Marked s t) (r : QueueId) : t.queue r = s.queue r := by
  obtain ⟨b, fc, -, rfl⟩ := h
  cases r <;> rfl

theorem State.queue_congr (h : t.fifo = s.fifo) (r : QueueId) : t.queue r = s.queue r := by
  cases r <;> simp only [State.queue, h]

/-- The ways one transition can leave a queue: as it is, with a byte stored at its head, with the byte of its tail taken
out, or emptied by CTRL_RESET. -/
inductive QueueChange (i : Instr) (s t : State) (r : QueueId) : Prop
  | kept (hr : t.queue r = s.queue r)
  | stored (d : Byte) (hi : Stores s r d i) (hcur : s.cur = producer r) (hfull : s.isFull r = false)
      (hr : t.queue r = (s.pushed r d).queue r) (hres : (t.res.get s.cur).status = Status.ok.code)
  | taken (d : Byte) (hi : i = .fifoPop r ∨ (r = .tx ∧ i = .txEgress ∧ t.logs.txLine = s.logs.txLine ++ [d]))
      (hcur : s.cur = consumer r) (hempty : s.isEmpty r = false)
      (hd : s.peek (slotSpace r) (s.queue r).tail.toNat = some d) (hr : t.queue r = (s.popped r).queue r)
      (hres : t.res.get s.cur = ⟨Status.ok.code, zext16 d⟩)
  | reset (hi : i = .ctrlReset) (hcur : s.cur = .main) (hr : t.queue r = (s.queue r).cleared)

theorem Stores.cur_eq_producer {d : Byte} (h : Stores s q d i) (hi : allowed i s.cur = true) : s.cur = producer q := by
  rcases h with rfl | rfl | ⟨rfl, rfl, -⟩
  · cases q <;> simp_all [allowed, producer]
  · cases q <;> simp_all [allowed, producer]
  · simpa [allowed, producer] using hi

theorem cur_eq_consumer (hi : allowed (.fifoPop q) s.cur = true) : s.cur = consumer q := by
  cases q <;> simpa [allowed, consumer] using hi

theorem Ends.queueChange {st : Status} {x : Half} (h : Ends s i u st x) (hi : allowed i s.cur = true) (r : QueueId) :
    QueueChange i s (u.finish st x) r := by
  have hcur : u.cur = s.cur := h.partsChanged.unitFrame.cur_eq
  have hres : ((u.finish st x).res.get s.cur) = ⟨st.code, x⟩ := by simp [hcur]
  cases h with
  | quiet _ _ hu => exact .kept (State.queue_congr hu.fifo_flag.1 r)
  | reset => exact .reset rfl (by simpa [allowed] using hi) (by cases r <;> rfl)
  | flag => exact .kept (by cases r <;> rfl)
  | stored q d _ hstore hfull =>
    by_cases hr : r = q
    · subst hr
      exact .stored d hstore (hstore.cur_eq_producer hi) hfull ((afterStore_marked r).queue r) (by rw [hres])
    · exact .kept (((afterStore_marked q).queue r).trans (State.setQueue_queue_other _ _ _ r hr))
  | dropped q => exact .kept ((afterDrop_marked q).queue r)
  | nothingToPop q => exact .kept ((afterPop_marked q).queue r)
  | taken q d hempty hd =>
    by_cases hr : r = q
    · subst hr
      exact .taken d (.inl rfl) (cur_eq_consumer hi) hempty hd ((afterPop_marked r).queue r) hres
    · exact .kept (((afterPop_marked q).queue r).trans (State.setQueue_queue_other _ _ _ r hr))
  | sent d hempty hd =>
    cases r with
    | rx => exact .kept rfl
    | tx => exact .taken d (.inr ⟨rfl, rfl, rfl⟩) (by simpa [allowed, consumer] using hi) hempty hd rfl hres
  | sentFlowControl => exact .kept (by cases r <;> rfl)

theorem exec_queueChange (h : exec i s = .next t) (r : QueueId) : QueueChange i s t r := by
  cases exec_does h with
  | holds => exact .kept (by cases r <;> rfl)
  | refused => exact .kept (by cases r <;> rfl)
  | ends hi hu => exact hu.queueChange hi r
  | goesOn _ hu => exact .kept (State.queue_congr hu.fifo_flag.1 r)

/-- Settles O21: each change of a queue comes with the port that made it. -/
theorem queueOwnership : Obligations.QueueOwnership := by
  refine ⟨rfl, rfl, rfl, rfl, fun i s t q h => ?_⟩
  cases exec_queueChange h q with
  | kept hr => simp [hr]
  | stored d hi hcur _ hr =>
    refine ⟨fun _ => ⟨fun _ => hcur, fun htail => absurd ?_ htail⟩, ?_⟩
    · rw [hr, State.pushed, State.setQueue_queue_same]
    · rintro rfl
      rcases hi with hi | hi | ⟨-, hi, -⟩ <;> cases hi
  | taken d hi hcur _ _ hr =>
    have hq : t.queue q = { s.queue q with tail := nextPtr (capacity s.cfg q) (s.queue q).tail } := by
      rw [hr, State.popped, State.setQueue_queue_same]
    refine ⟨fun _ => ⟨fun hhead => ?_, fun _ => hcur⟩, ?_⟩
    · simp [hq] at hhead
    · rintro rfl
      rcases hi with hi | ⟨-, hi, -⟩ <;> cases hi
  | reset hi hcur hr => exact ⟨fun hne => absurd hi hne, fun _ => .inr ⟨hcur, hr⟩⟩

/-! ## The bytes a queue holds -/

/-- What slot `a` of a queue holds; an unlisted one reads 0 (assumption log 7). -/
def slotByte (m : Memory) (a : Nat) : Byte := (Mem.get? m a).getD 0

theorem slotByte_write (m : Memory) (a b : Nat) (d : Byte) :
    slotByte (Mem.write (some 0) m a d) b = if b = a then d else slotByte m b := by
  have getD_eq (o : Option Byte) : o.getD 0 = (o.or (some 0)).getD 0 := by cases o <;> rfl
  rw [slotByte, slotByte, getD_eq, Mem.get?_write, getD_eq (Mem.get? m b)]
  split <;> rfl

theorem State.peek_slot (s : State) (q : QueueId) (a : Nat) :
    s.peek (slotSpace q) a = some (slotByte (s.queue q).mem a) := by
  have hmem : s.mem (slotSpace q) = (s.queue q).mem := by cases q <;> rfl
  have hzero : (slotSpace q).unlisted = some 0 := by cases q <;> rfl
  rw [State.peek_eq, hmem, hzero, slotByte]
  cases Mem.get? (s.queue q).mem a <;> rfl

/-- The bytes in the slots of a queue, oldest first (R41). -/
def Queue.bytes (c : Nat) (x : Queue) : List Byte :=
  (List.range (x.count c)).map fun j => slotByte x.mem ((x.tail.toNat + j) % c)

theorem State.held_eq (s : State) (q : QueueId) : s.held q = (s.queue q).bytes (capacity s.cfg q) := by
  simp only [State.held, Queue.bytes, State.peek_slot, Option.getD_some]
  rfl

theorem Queue.InRange.of_inv (hs : s.Inv) (q : QueueId) : (s.queue q).InRange (capacity s.cfg q) := by
  cases q with
  | rx => exact hs.rxPointers
  | tx => exact hs.txPointers

theorem ParamsOk.capacity_le {c : Params} (hc : ParamsOk c) (q : QueueId) : capacity c q ≤ 256 := by
  cases q with
  | rx => exact hc.cRx.2
  | tx => exact hc.cTx.2

end

/-- The slot `j` places after slot `a`, around the ring. -/
theorem ring_slot {a j c : Nat} (ha : a < c) (hj : j < c) :
    (a + j) % c = if a + j < c then a + j else a + j - c := by
  split
  · exact Nat.mod_eq_of_lt ‹_›
  · rw [Nat.mod_eq_sub_mod (by omega), Nat.mod_eq_of_lt (by omega)]

section
variable {c : Nat} {x : Queue} (hc' : c ≤ 256) (hx : x.InRange c)
include hx

/-- The slot after the newest byte is the head slot, and the slots of the bytes held are others. -/
theorem Queue.ring_slot_eq_head_iff {j : Nat} (hj : j ≤ x.count c) :
    (x.tail.toNat + j) % c = x.head.toNat ↔ j = x.count c := by
  rw [ring_slot hx.2 (Nat.lt_of_le_of_lt hj (Queue.count_lt hx))]
  obtain ⟨hhead, htail⟩ := hx
  unfold Queue.count at hj ⊢
  split_ifs at hj ⊢ <;> omega

include hc'

theorem Queue.count_push (hfull : x.isFull c = false) (m : Memory) :
    Queue.count c ⟨m, nextPtr c x.head, x.tail⟩ = x.count c + 1 := by
  have hnot : ¬ x.isFull c = true := by simp [hfull]
  rw [Queue.isFull_iff hc' hx.1] at hnot
  obtain ⟨hhead, htail⟩ := hx
  simp only [Queue.count, nextPtr_toNat hc' hhead] at hnot ⊢
  split_ifs at hnot ⊢ <;> omega

theorem Queue.count_pop (hempty : x.isEmpty = false) :
    x.count c = Queue.count c { x with tail := nextPtr c x.tail } + 1 := by
  have hnot : ¬ x.isEmpty = true := by simp [hempty]
  rw [Queue.isEmpty_iff] at hnot
  obtain ⟨hhead, htail⟩ := hx
  simp only [Queue.count, nextPtr_toNat hc' htail]
  split_ifs <;> omega

/-- A store appends its byte (R120, R125). -/
theorem Queue.bytes_push (hfull : x.isFull c = false) (d : Byte) :
    Queue.bytes c ⟨Mem.write (some 0) x.mem x.head.toNat d, nextPtr c x.head, x.tail⟩ = x.bytes c ++ [d] := by
  rw [Queue.bytes, Queue.count_push hc' hx hfull, List.range_succ, List.map_append]
  congr 1
  · refine List.map_congr_left fun j hj => ?_
    have hj : j < x.count c := List.mem_range.1 hj
    rw [slotByte_write, if_neg fun h => hj.ne ((Queue.ring_slot_eq_head_iff hx hj.le).1 h)]
  · rw [List.map_singleton, slotByte_write, if_pos ((Queue.ring_slot_eq_head_iff hx le_rfl).2 rfl)]

/-- The slot `j` places after the next one is `j + 1` places after this one. -/
theorem Queue.ring_slot_nextPtr (j : Nat) :
    ((nextPtr c x.tail).toNat + j) % c = (x.tail.toNat + (j + 1)) % c := by
  rw [nextPtr_toNat hc' hx.2]
  split
  · rw [show x.tail.toNat + (j + 1) = j + c by omega, Nat.add_mod_right, Nat.zero_add]
  · rw [Nat.add_right_comm, Nat.add_assoc]

/-- A pop takes the oldest byte (R124, R125). -/
theorem Queue.bytes_pop (hempty : x.isEmpty = false) :
    x.bytes c = slotByte x.mem x.tail.toNat :: Queue.bytes c { x with tail := nextPtr c x.tail } := by
  rw [Queue.bytes, Queue.count_pop hc' hx hempty, List.range_succ_eq_map, List.map_cons, List.map_map]
  congr 1
  · rw [Nat.add_zero, Nat.mod_eq_of_lt hx.2]
  · refine List.map_congr_left fun j _ => ?_
    exact congrArg (slotByte x.mem) (Queue.ring_slot_nextPtr hc' hx j).symm

end

/-- Settles O22: each change of a queue, read off its bytes. -/
theorem queueOrder : Obligations.QueueOrder := by
  intro i s t q hs h
  have hc := hs.cfg.capacity_le q
  have hx := Queue.InRange.of_inv hs q
  have hcfg : t.cfg = s.cfg := (exec_does h).unitFrame.cfg_eq
  rw [State.held_eq, State.held_eq, hcfg]
  cases exec_queueChange h q with
  | kept hr => exact .inl (by rw [hr])
  | stored d hi _ hfull hr hres =>
    refine .inr (.inl ⟨d, ?_, hres, hi⟩)
    rw [hr, State.pushed, State.setQueue_queue_same, ← Queue.bytes_push hc hx hfull d]
    cases q <;> rfl
  | taken d hi _ hempty hd hr hres =>
    refine .inr (.inr (.inl ⟨d, ?_, hres, hi⟩))
    rw [State.peek_slot] at hd
    rw [hr, State.popped, State.setQueue_queue_same, Queue.bytes_pop hc hx hempty, Option.some.inj hd]
  | reset hi _ hr => exact .inr (.inr (.inr ⟨hi, by rw [hr]; rfl⟩))

end Sys2Proof.Machine

namespace Sys2Proof.Machine

/-! # Every step keeps the invariant -/

/-! ## The modes of a program cycle (43_eeprom.md R201, R205) -/

/-- A program cycle in the mode that `classify` gives leaves the value that was put. -/
theorem programmed_classify (old v : Byte) : programmed (classify old v) old v = v := by
  unfold classify
  split
  · split
    · exact Eq.symm ‹_›
    · rfl
  · rename_i hset
    have hsub : (old ^^^ v) &&& v = 0 := by simpa using hset
    split
    · refine BitVec.eq_of_getLsbD_eq fun k hk => ?_
      have hk' := congrArg (BitVec.getLsbD · k) hsub
      simp only [BitVec.getLsbD_and, BitVec.getLsbD_xor, BitVec.ofNat_eq_ofNat, BitVec.getLsbD_zero] at hk'
      simp only [programmed, BitVec.getLsbD_and]
      cases hv : v.getLsbD k <;> simp_all
    · rename_i hsame
      exact (show old = v by simpa using hsame)

/-! ## The part of the invariant that speaks of the units -/

/-- A queue as the invariant has it: pointers in range (R37) and slots in canonical form. -/
structure Queue.Ok (c : Nat) (x : Queue) : Prop where
  inRange : x.InRange c
  slots : Mem.Wf (some 0x00) c x.mem

/-- The invariant without its clauses on the issuing ports. -/
structure State.UnitsOk (s : State) : Prop where
  cfg : ParamsOk s.cfg
  queues : ∀ q, (s.queue q).Ok (capacity s.cfg q)
  eeMem : Mem.Wf (some 0xFF) s.cfg.eeSize s.ee.mem
  bufMem : Mem.Wf none 256 s.buf
  flowControl : s.cfg.fcEnable = false → s.fifo.fc = .xonSent
  alarmLatch : s.flag.pending = true → s.flag.alarm ≠ 0
  eeIdle : s.ee.busy = false → s.ee.pend = ⟨0, .none, 0⟩
  eeAddr : s.ee.busy = true → s.ee.pend.addr.toNat < s.cfg.eeSize
  eeValue : s.ee.busy = true → ∀ old, s.peek .eemem s.ee.pend.addr.toNat = some old →
    programmed s.ee.pend.mode old s.ee.pend.value = s.ee.pend.value

/-- The invariant's clauses on the issuing ports. -/
structure State.PortsOk (s : State) : Prop where
  statuses : ∀ p, (s.res.get p).status ∈ statusCodes
  pendOthers : ∀ p, p ≠ .main → s.pend.get p = none
  pendMain : ∀ r, s.pend.main = some r → ∃ i, decode r.word = some i ∧ stageFits s i r.stage

section
variable {i : Instr} {s t u : State}

theorem State.Inv.unitsOk (hs : s.Inv) : s.UnitsOk :=
  { hs with
    queues := fun q => by
      cases q with
      | rx => exact ⟨hs.rxPointers, hs.mem .rxmem⟩
      | tx => exact ⟨hs.txPointers, hs.mem .txmem⟩
    eeMem := hs.mem .eemem
    bufMem := hs.mem .bufmem }

theorem State.Inv.portsOk (hs : s.Inv) : s.PortsOk := { hs with }

theorem State.UnitsOk.inv (hs : s.UnitsOk) (hp : s.PortsOk) : s.Inv :=
  { hs, hp with
    rxPointers := (hs.queues .rx).inRange
    txPointers := (hs.queues .tx).inRange
    mem := fun sp => by
      cases sp with
      | rxmem => exact (hs.queues .rx).slots
      | txmem => exact (hs.queues .tx).slots
      | eemem => exact hs.eeMem
      | bufmem => exact hs.bufMem }

theorem Change.unitsOk (h : Change i s u) (hs : s.UnitsOk) : u.UnitsOk := by
  cases h with
  | answer => exact { hs with }
  | bus => exact { hs with }
  | draw => exact { hs with }
  | bufByte j b hi hj => exact { hs with bufMem := Mem.wf_write hs.bufMem hj }
  | cycle a old v hi hidle ha hold =>
    have haddr : (BitVec.ofNat 16 a).toNat = a := by
      rw [BitVec.toNat_ofNat]
      exact Nat.mod_eq_of_lt (Nat.lt_of_lt_of_le ha hs.cfg.eeSize.2)
    refine { hs with eeIdle := nofun, eeAddr := fun _ => ?_, eeValue := fun _ old' hold' => ?_ }
    · exact haddr.trans_lt ha
    · have hread : s.peek .eemem (BitVec.ofNat 16 a).toNat = some old' := hold'
      rw [haddr, hold] at hread
      cases hread
      exact programmed_classify old v

theorem Changes.unitsOk (h : Changes i s u) (hs : s.UnitsOk) : u.UnitsOk := by
  induction h with
  | refl => exact hs
  | tail _ hu ih => exact hu.unitsOk ih

theorem FlagChange.unitsOk {f : FlagUnit} (h : FlagChange s i f) (hs : s.UnitsOk) : (s.setFlag f).UnitsOk := by
  refine { hs with alarmLatch := ?_ }
  show f.pending = true → f.alarm ≠ 0
  cases h with
  | execRaise m => exact hs.alarmLatch
  | execClear m => exact hs.alarmLatch
  | rxIngress d c => exact hs.alarmLatch
  | alarmClear => intro h; cases h
  | alarmRaise m =>
    intro h hzero
    obtain ⟨halarm, hm⟩ := BitVec.or_eq_zero_iff.1 hzero
    obtain hp | hm' := Bool.or_eq_true_iff.1 h
    · exact hs.alarmLatch hp halarm
    · exact bne_iff_ne.1 hm' hm
  | dispatchTake =>
    cases s.flag.prio with
    | none => exact hs.alarmLatch
    | alarm => intro h; cases h
    | exec c => exact hs.alarmLatch

theorem Marked.unitsOk (h : Marked s t) (hs : s.UnitsOk) : t.UnitsOk := by
  have hqueue := h.queue
  obtain ⟨b, fc, hfc, rfl⟩ := h
  refine { hs with queues := fun q => (hqueue q).symm ▸ hs.queues q, flowControl := fun hdis => ?_ }
  obtain rfl | hen := hfc
  · exact hs.flowControl hdis
  · cases hen.symm.trans hdis

theorem setQueue_unitsOk {x : Queue} {q : QueueId} (hs : s.UnitsOk) (hx : x.Ok (capacity s.cfg q)) :
    (s.setQueue x q).UnitsOk := by
  have hqueues (r : QueueId) : ((s.setQueue x q).queue r).Ok (capacity s.cfg r) := by
    by_cases hr : r = q
    · subst hr
      rwa [State.setQueue_queue_same]
    · rw [State.setQueue_queue_other _ _ _ r hr]
      exact hs.queues r
  cases q with
  | rx => exact { hs with queues := hqueues }
  | tx => exact { hs with queues := hqueues }

theorem pushed_unitsOk (hs : s.UnitsOk) (q : QueueId) (d : Byte) : (s.pushed q d).UnitsOk := by
  obtain ⟨⟨hhead, htail⟩, hslots⟩ := hs.queues q
  have hzero : (slotSpace q).unlisted = some 0x00 := by cases q <;> rfl
  refine setQueue_unitsOk hs ⟨⟨nextPtr_lt (hs.cfg.capacity_le q) hhead, htail⟩, ?_⟩
  rw [hzero]
  exact Mem.wf_write hslots hhead

theorem popped_unitsOk (hs : s.UnitsOk) (q : QueueId) : (s.popped q).UnitsOk := by
  obtain ⟨⟨hhead, htail⟩, hslots⟩ := hs.queues q
  exact setQueue_unitsOk hs ⟨⟨hhead, nextPtr_lt (hs.cfg.capacity_le q) htail⟩, hslots⟩

theorem Queue.Ok.cleared {c : Nat} {x : Queue} (hx : x.Ok c) : x.cleared.Ok c :=
  have hpos : 0 < c := Nat.zero_lt_of_lt hx.inRange.1
  ⟨⟨hpos, hpos⟩, hx.slots⟩

theorem controllerReset_unitsOk (hs : s.UnitsOk) : s.controllerReset.UnitsOk := by
  refine { hs with queues := fun q => ?_, flowControl := fun _ => rfl, alarmLatch := nofun }
  cases q with
  | rx => exact (hs.queues .rx).cleared
  | tx => exact (hs.queues .tx).cleared

theorem Ends.unitsOk {st : Status} {x : Half} (h : Ends s i u st x) (hs : s.UnitsOk) : u.UnitsOk := by
  cases h with
  | quiet _ _ hu => exact hu.unitsOk hs
  | reset => exact controllerReset_unitsOk hs
  | flag _ _ hf => exact hf.unitsOk hs
  | stored q d => exact (afterStore_marked q).unitsOk (pushed_unitsOk hs q d)
  | dropped q => exact (afterDrop_marked q).unitsOk hs
  | nothingToPop q => exact (afterPop_marked q).unitsOk hs
  | taken q d => exact (afterPop_marked q).unitsOk (popped_unitsOk hs q)
  | sent d => exact { popped_unitsOk hs .tx with }
  | sentFlowControl b fc hen => exact { (setFc_marked hen fc).unitsOk hs with }

theorem Does.unitsOk (h : Does i s t) (hs : s.UnitsOk) : t.UnitsOk := by
  cases h with
  | holds => exact { hs with }
  | refused => exact { hs with }
  | ends _ hu => exact { hu.unitsOk hs with }
  | goesOn _ hu => exact { hu.unitsOk hs with }

/-! ## The records of the ports -/

theorem code_mem_statusCodes (st : Status) : st.code ∈ statusCodes := by cases st <;> decide

/-- Which stages fit depends on the I2C unit and the parameters only. -/
theorem stageFits_congr (hcfg : t.cfg = s.cfg) (hi2c : t.i2c = s.i2c) (i : Instr) (st : Stage) :
    stageFits t i st = stageFits s i st := by
  unfold stageFits
  rw [hcfg, hi2c]

/-- Operations that hold are MAIN's: no other port may issue one (R33, R255). -/
theorem cur_eq_main_of_holds (h : s.holds i = true) : s.cur = .main := by
  rw [State.holds_eq, Bool.and_eq_true] at h
  obtain ⟨hi, hw⟩ := h
  cases i with
  | fifoPushWait q d =>
    cases q with
    | rx => cases hi
    | tx => simpa [allowed] using hi
  | i2cStart | i2cRestart | i2cWrite | i2cReadAck | i2cReadNack | i2cStop | i2cWriteReg | i2cReadReg
  | eeGet | eePut | eeWriteBlock | eeReadBlock => simpa [allowed] using hi
  | _ => cases hw

theorem cur_eq_main_of_mayGoOn (hi : allowed i s.cur = true) (h : s.mayGoOn i) : s.cur = .main := by
  cases i with
  | i2cStart | i2cRestart | i2cWriteReg | i2cReadReg | eeWriteBlock | eeReadBlock => simpa [allowed] using hi
  | _ => rcases h with h | ⟨h, -⟩ <;> cases h

/-- No operation of another port than MAIN touches the I2C unit (R33). -/
theorem exec_i2c_of_not_main (h : exec i s = .next t) (hcur : s.cur ≠ .main) : t.i2c = s.i2c := by
  cases hi : allowed i s.cur with
  | false =>
    rw [exec_of_refused hi] at h
    cases h; rfl
  | true =>
    refine ((exec_does h).unitFrame.i2c fun hu => hcur ?_).1
    cases i with
    | i2cStart | i2cRestart | i2cWrite | i2cReadAck | i2cReadNack | i2cStop | i2cWriteReg | i2cReadReg =>
      simpa [allowed] using hi
    | _ => cases hu

/-- An operation that holds for a bus phase is one whose condition for that phase is met (R172, R188). -/
theorem need_of_silent {b : Bool} {ph : BusPhase} (h : s.silent (if b then some ph else none) = true) : b = true := by
  cases b with
  | true => rfl
  | false => cases h

/-- An EE operation that holds is in range (R207). -/
theorem inRange_of_waits {b : Bool} (h : (b && s.ee.busy || s.silent none) = true) : b = true := by
  cases b with
  | true => rfl
  | false => cases h

/-- An operation that holds at its first transition may be recorded there: what it waits for is what it may do. -/
theorem stageFits_start_of_holds (h : s.holds i = true) (hstart : s.stage = .start) : stageFits s i .start := by
  rw [State.holds_eq, Bool.and_eq_true] at h
  obtain ⟨hi, hw⟩ := h
  have closed (hcompose : s.silent s.i2c.composeNeed = true) : s.i2c.phase.isOpen = false := by
    simpa [I2cUnit.mayCompose] using need_of_silent hcompose
  cases i with
  | fifoPushWait q d =>
    cases q with
    | rx => cases hi
    | tx => trivial
  | i2cStart a rw => trivial
  | i2cRestart a rw => trivial
  | i2cWrite d => exact need_of_silent (ph := .write) hw
  | i2cReadAck => exact need_of_silent (ph := .read) hw
  | i2cReadNack => exact need_of_silent (ph := .read) hw
  | i2cStop => exact need_of_silent (ph := .stop) hw
  | i2cWriteReg a reg n =>
    rw [State.waits, State.busNeed, hstart] at hw
    exact closed hw
  | i2cReadReg a reg n =>
    rw [State.waits, State.busNeed, hstart] at hw
    by_cases hn : n = 0
    · rw [if_pos hn] at hw
      cases hw
    · rw [if_neg hn] at hw
      exact ⟨hn, closed hw⟩
  | eeGet a => exact of_decide_eq_true (p := a < s.cfg.eeSize) (inRange_of_waits hw)
  | eePut a v => exact of_decide_eq_true (p := a < s.cfg.eeSize) (inRange_of_waits hw)
  | eeWriteBlock a len => exact of_decide_eq_true (p := a + len < s.cfg.eeSize) (inRange_of_waits hw)
  | eeReadBlock a len => exact of_decide_eq_true (p := a + len < s.cfg.eeSize) (inRange_of_waits hw)
  | _ => cases hw

theorem stageFits_of_holds (h : s.holds i = true) (hst : Stands i s) : stageFits s i s.stage :=
  hst.elim (fun hstart => hstart ▸ stageFits_start_of_holds h hstart) id

/-- A transition that goes on leaves a record that its operation can have. -/
theorem Does.stageFits_of_goesOn {st : Stage} (h : Does i s t) (hgo : GoesOn i s t st) (hne : st ≠ s.stage)
    (hst : Stands i s) : allowed i s.cur = true ∧ stageFits t i st := by
  obtain ⟨-, hpend, -⟩ := hgo
  have hrec : t.pend.get s.cur = some ⟨encode i, st⟩ := by rw [hpend, PerPort.get_set_same]
  cases h with
  | holds =>
    simp at hrec
    exact absurd hrec.symm hne
  | refused => simp at hrec
  | @ends u st' x hi hu =>
    have hcur : u.cur = s.cur := hu.partsChanged.unitFrame.cur_eq
    simp [hcur] at hrec
  | @goesOn u st' hi hu hfit =>
    have hcur : u.cur = s.cur := hu.unitFrame.cur_eq
    have hst' : st' = st := by simpa [hcur] using hrec
    subst hst'
    exact ⟨hi, hfit hst⟩

theorem portsOk_of_goesOn {st : Stage} (hs : s.PortsOk) (hgo : GoesOn i s t st) (hcur : s.cur = .main)
    (hi : decode (encode i) = some i) (hfit : stageFits t i st) : t.PortsOk := by
  obtain ⟨hres, hpend, -⟩ := hgo
  rw [hcur] at hpend
  refine ⟨fun p => hres ▸ hs.statuses p, fun p hp => ?_, fun r hr => ?_⟩
  · rw [hpend, PerPort.get_set_other _ _ _ _ hp]
    exact hs.pendOthers p hp
  · rw [hpend] at hr
    cases hr
    exact ⟨i, hi, hfit⟩

theorem portsOk_of_ended {st : Status} {x : Half} (hs : s.PortsOk) (hend : Ended s t st x) (hcfg : t.cfg = s.cfg)
    (hi2c : s.cur ≠ .main → t.i2c = s.i2c) : t.PortsOk := by
  obtain ⟨hres, hpend, -⟩ := hend
  refine ⟨fun p => ?_, fun p hp => ?_, fun r hr => ?_⟩
  · by_cases hp : p = s.cur
    · rw [hres, hp, PerPort.get_set_same]
      exact code_mem_statusCodes st
    · rw [hres, PerPort.get_set_other _ _ _ _ hp]
      exact hs.statuses p
  · by_cases hp' : p = s.cur
    · rw [hpend, hp', PerPort.get_set_same]
    · rw [hpend, PerPort.get_set_other _ _ _ _ hp']
      exact hs.pendOthers p hp
  · by_cases hcur : s.cur = .main
    · rw [hpend, hcur] at hr
      cases hr
    · rw [← PerPort.get_main, hpend, PerPort.get_set_other _ _ _ _ (Ne.symm hcur)] at hr
      obtain ⟨i, hi, hfit⟩ := hs.pendMain r hr
      exact ⟨i, hi, (stageFits_congr hcfg (hi2c hcur) i r.stage).symm ▸ hfit⟩

/-! ## One step -/

/-- Every transition of an operation keeps the invariant, from a state where the operation stands. -/
theorem exec_inv (hs : s.Inv) (hi : decode (encode i) = some i) (hst : Stands i s) (h : exec i s = .next t) :
    t.Inv := by
  have hdoes := exec_does h
  refine (hdoes.unitsOk hs.unitsOk).inv ?_
  cases hw : s.holds i with
  | true =>
    rw [exec_of_holds hw] at h
    cases h
    exact portsOk_of_goesOn (i := i) hs.portsOk ⟨rfl, rfl, rfl⟩ (cur_eq_main_of_holds hw) hi
      (stageFits_of_holds hw hst)
  | false =>
    obtain ⟨st, x, hend⟩ | ⟨hmay, st, hne, hgo⟩ := moved_of_not_holds hw h
    · exact portsOk_of_ended hs.portsOk hend hdoes.unitFrame.cfg_eq (exec_i2c_of_not_main h)
    · obtain ⟨ha, hfit⟩ := hdoes.stageFits_of_goesOn hgo hne hst
      exact portsOk_of_goesOn hs.portsOk hgo (cur_eq_main_of_mayGoOn ha hmay) hi hfit

/-- What EE_DONE does (R208): nothing while no cycle is in flight, and otherwise it programs the cell. -/
theorem eeDone_next (h : eeDone s = .next t) :
    t = s ∨ ∃ v, s.ee.pend.addr.toNat < s.cfg.eeSize ∧
      t = (s.setMem (Mem.write (some 0xFF) s.ee.mem s.ee.pend.addr.toNat v) .eemem).setEe
        ⟨Mem.write (some 0xFF) s.ee.mem s.ee.pend.addr.toNat v, false, ⟨0, .none, 0⟩⟩ := by
  unfold eeDone at h
  split at h
  · obtain ⟨ha, ⟨old, -, h⟩ | ⟨hsp, -⟩⟩ := readByte_next h
    · obtain ⟨-, h⟩ := writeByte_next h
      cases h
      exact .inr ⟨_, ha, rfl⟩
    · cases hsp
  · cases h; exact .inl rfl

theorem eeDone_inv (hs : s.Inv) (h : eeDone s = .next t) : t.Inv := by
  obtain rfl | ⟨v, ha, rfl⟩ := eeDone_next h
  · exact hs
  · exact { hs with
      mem := State.mem_wf_write (sp := .eemem) ha hs.mem
      eeIdle := fun _ => rfl
      eeAddr := nofun
      eeValue := nofun }

/-- An operation that was decoded is the one its own word decodes to. -/
theorem decode_encode_of_decode {w : Word} (h : decode w = some i) : decode (encode i) = some i :=
  decode_encode (wellFormed_of_decode h)

/-- The record of a port's operation in progress is one the operation can have (R34). -/
theorem stands_of_pending {r : Pending} (hs : s.Inv) (hr : s.pend.get s.cur = some r) (hi : decode r.word = some i) :
    Stands i s := by
  have hcur : s.cur = .main := by
    by_contra hcur
    rw [hs.pendOthers _ hcur] at hr
    cases hr
  have hstage : s.stage = r.stage := by rw [State.stage, hr]
  rw [hcur] at hr
  obtain ⟨j, hj, hfit⟩ := hs.pendMain r hr
  cases hi.symm.trans hj
  exact .inr (hstage ▸ hfit)

theorem stands_of_no_pending (hp : s.pend.get s.cur = none) : Stands i s := .inl (by rw [State.stage, hp])

/-- The state that comes with what a port is about to do. -/
def Issued.state : Issued → State
  | .idle v | .illegal v | .run _ v => v

theorem decoded_state (s : State) (w : Word) : (s.decoded w).state = s := by
  cases hw : decode w with
  | none => rw [State.decoded_illegal hw]; rfl
  | some i => rw [State.decoded_run hw]; rfl

/-- Issuing changes nothing but the program of the port, so it keeps the invariant. -/
theorem issue_inv (hs : s.Inv) : s.issue.state.Inv := by
  rcases s.issue_cases with ⟨r, -, h⟩ | ⟨-, -, h⟩ | ⟨w, ws, -, -, h⟩
  · rw [h, decoded_state]; exact hs
  · rw [h]; exact hs
  · rw [h, decoded_state]; exact { hs with }

theorem decoded_run_iff {w : Word} : s.decoded w = .run i u ↔ decode w = some i ∧ s = u := by
  cases hw : decode w with
  | none => simp [State.decoded_illegal hw]
  | some j => simp [State.decoded_run hw]

/-- The operation a port runs is the one it stands at, or a new one (R31, R34). -/
theorem issue_run_stands (hs : s.Inv) (h : s.issue = .run i u) : decode (encode i) = some i ∧ Stands i u := by
  rcases s.issue_cases with ⟨r, hr, hissue⟩ | ⟨-, -, hissue⟩ | ⟨w, ws, hp, -, hissue⟩
  · obtain ⟨hi, rfl⟩ := decoded_run_iff.1 (hissue.symm.trans h)
    exact ⟨decode_encode_of_decode hi, stands_of_pending hs hr hi⟩
  · cases hissue.symm.trans h
  · obtain ⟨hi, rfl⟩ := decoded_run_iff.1 (hissue.symm.trans h)
    exact ⟨decode_encode_of_decode hi, stands_of_no_pending hp⟩

/-- The refusal of a word that is ILLEGAL keeps the invariant (R110). -/
theorem finish_inv (hs : s.Inv) (st : Status) (x : Half) : (s.finish st x).Inv :=
  State.UnitsOk.inv { hs.unitsOk with } (portsOk_of_ended hs.portsOk ⟨rfl, rfl, rfl⟩ rfl fun _ => rfl)

theorem step_inv (hs : s.Inv) (h : step s = .next t) : t.Inv := by
  rcases step_cases h with ⟨-, h⟩ | ⟨rest, -, h⟩ | ⟨p, rest, -, hissue⟩
  · exact eeDone_inv hs h
  · exact eeDone_inv (s := s.setSched rest) { hs with } h
  · have hport : ((s.setSched rest).setCur p).Inv := { hs with }
    have hissued := issue_inv hport
    rcases hissue with hidle | ⟨u, hillegal, rfl⟩ | ⟨i, u, hrun, hexec⟩
    · rwa [hidle] at hissued
    · rw [hillegal] at hissued
      exact finish_inv hissued _ _
    · obtain ⟨hi, hst⟩ := issue_run_stands hport hrun
      rw [hrun] at hissued
      exact exec_inv hissued hi hst hexec

end

/-- Settles O10: EE_DONE, and each operation from a state where it stands (`exec_inv`). -/
theorem stepKeepsInvariant : Obligations.StepKeepsInvariant := fun _ _ => step_inv

end Sys2Proof.Machine

namespace Sys2Proof.Machine

/-! # The bytes an operation leaves as they were (20_memory.md R70, R79) -/

section
variable {i : Instr} {s t : State}

/-! ## Each space on its own -/

theorem Changes.ee_mem (h : Changes i s t) : t.ee.mem = s.ee.mem := by
  induction h with
  | refl => rfl
  | tail _ hu ih => cases hu <;> exact ih

/-- No operation writes EEMEM, EE_PUT and EE_WRITE_BLOCK included: only EE_DONE does (R208). -/
theorem exec_ee_mem (h : exec i s = .next t) : t.ee.mem = s.ee.mem := by
  cases exec_does h with
  | holds => rfl
  | refused => rfl
  | goesOn _ hu => exact hu.ee_mem
  | ends _ hu =>
    cases hu.partsChanged with
    | quiet hu => exact hu.ee_mem
    | reset => rfl
    | flag => rfl
    | serial _ hu =>
      obtain ⟨f, l, rfl⟩ := hu
      rfl

/-- A slot that reads otherwise after an operation is the head slot of a queue that is not full, and the operation is
one that stores (R120). -/
theorem exec_slot (h : exec i s = .next t) (q : QueueId) (a : Nat) :
    t.peek (slotSpace q) a = s.peek (slotSpace q) a ∨
      ((∃ d, Stores s q d i) ∧ s.isFull q = false ∧ a = (s.queue q).head.toNat) := by
  simp only [State.peek_slot, Option.some.injEq]
  cases exec_queueChange h q with
  | kept hq => exact .inl (by rw [hq])
  | taken d _ _ _ _ hq => exact .inl (by rw [hq, State.popped, State.setQueue_queue_same])
  | reset _ _ hq => exact .inl (by rw [hq, Queue.cleared])
  | stored d hi _ hfull hq =>
    by_cases ha : a = (s.queue q).head.toNat
    · exact .inr ⟨⟨d, hi⟩, hfull, ha⟩
    · have hzero : (slotSpace q).unlisted = some 0 := by cases q <;> rfl
      rw [hq, State.pushed, State.setQueue_queue_same, hzero, slotByte_write, if_neg ha]
      exact .inl rfl

/-- The queue that an operation stores into, where it stores into one. -/
def storesInto : Instr → Option QueueId
  | .fifoPushWait q _ | .fifoPushDrop q _ => some q
  | .rxIngress _ => some .rx
  | _ => none

theorem Stores.storesInto_eq {q : QueueId} {d : Byte} (h : Stores s q d i) : storesInto i = some q := by
  rcases h with rfl | rfl | ⟨rfl, rfl, -⟩ <;> rfl

/-- The frame of an operation over all bytes: besides BUF, it can change the head slot of the queue it stores into. -/
theorem exec_sameBytesBut {except : Space → Nat → Prop} (h : exec i s = .next t)
    (hslot : ∀ q d, Stores s q d i → s.isFull q = false → except (slotSpace q) (s.queue q).head.toNat)
    (hbuf : ∀ b, ¬ except .bufmem b → Mem.get? t.buf b = Mem.get? s.buf b) : SameBytesBut except s t := by
  have hqueue (q : QueueId) (a : Nat) (ha : ¬ except (slotSpace q) a) :
      t.peek (slotSpace q) a = s.peek (slotSpace q) a := by
    obtain hkept | ⟨⟨d, hi⟩, hfull, rfl⟩ := exec_slot h q a
    · exact hkept
    · exact absurd (hslot q d hi hfull) ha
  intro sp a ha
  cases sp with
  | rxmem => exact hqueue .rx a ha
  | txmem => exact hqueue .tx a ha
  | eemem => exact State.peek_congr (sp := .eemem) (exec_ee_mem h) a
  | bufmem => rw [State.peek_buf, State.peek_buf, hbuf a ha]

/-- An operation of another unit than FIFO changes at most bytes of BUF. -/
theorem exec_sameBytesBut_buf {p : Nat → Prop} (h : exec i s = .next t) (hi : unitOf i ≠ .fifo)
    (hbuf : ∀ b, ¬ p b → Mem.get? t.buf b = Mem.get? s.buf b) :
    SameBytesBut (fun sp b => sp = .bufmem ∧ p b) s t :=
  exec_sameBytesBut h (fun _ _ hstore => absurd hstore.unit_fifo hi) fun b hb => hbuf b fun hp => hb ⟨rfl, hp⟩

/-! ## The BUF bytes that the operations which store into BUF leave as they were -/

theorem writeByte_buf_other {j b : Nat} {d : Byte} {k : State → Out} (h : writeByte .bufmem j d s k = .next t)
    (hk : ∀ u, k u = .next t → t.buf = u.buf) (hb : b ≠ j) : Mem.get? t.buf b = Mem.get? s.buf b := by
  obtain ⟨-, h⟩ := writeByte_next h
  rw [hk _ h]
  exact (Mem.get?_write_none s.buf j b d).trans (if_neg hb)

theorem readByte_buf {sp : Space} {a : Nat} {k : Byte → State → Out} (h : readByte sp a s k = .next t) :
    ∃ d u, u.buf = s.buf ∧ k d u = .next t := by
  obtain ⟨-, ⟨d, -, h⟩ | ⟨-, -, h⟩⟩ := readByte_next h
  · exact ⟨d, s, rfl, h⟩
  · exact ⟨_, s.setDraws (s.draws + 1), rfl, h⟩

theorem next_finish_buf {st : Status} {x : Half}
    (h : Host.Outcome.next (φ := Fault) (ρ := Refusal) (s.finish st x) = .next t) : t.buf = s.buf := by
  cases h; rfl

theorem next_await_buf {st : Stage}
    (h : Host.Outcome.next (φ := Fault) (ρ := Refusal) (s.await i st) = .next t) : t.buf = s.buf := by
  cases h; rfl

/-- BUF_WRITE (R235). -/
theorem execBufWrite_buf_other {j b : Nat} {d : Byte} (h : execBufWrite j d s = .next t) (hb : b ≠ j) :
    Mem.get? t.buf b = Mem.get? s.buf b := by
  obtain ⟨-, h⟩ | ⟨-, rfl⟩ := onPort_next h
  · exact writeByte_buf_other h (fun _ => next_finish_buf) hb
  · rfl

/-- EE_READ_BLOCK (R213): a data transition writes the byte of its index, and the trailer none. -/
theorem execEeReadBlock_buf_other {a len b : Nat} (h : execEeReadBlock a len s = .next t)
    (hb : ¬ (b = s.blockLoop.1 ∧ b < len)) : Mem.get? t.buf b = Mem.get? s.buf b := by
  obtain ⟨-, h⟩ | ⟨-, rfl⟩ := onPort_next h
  · split at h
    · rw [next_finish_buf h]
    obtain ⟨-, rfl⟩ | ⟨-, h⟩ := whenIdle_next h
    · rfl
    split at h
    · rename_i hlen
      obtain ⟨d, u, hu, h⟩ := readByte_buf h
      rw [← hu]
      exact writeByte_buf_other h (fun _ => next_await_buf) fun hj => hb ⟨hj, hj ▸ hlen⟩
    · obtain ⟨d, u, hu, h⟩ := readByte_buf h
      rw [next_finish_buf h, hu]
  · rfl

/-- A bus phase that a composite goes on from (R180, R181) leaves BUF as it was. -/
theorem phase_buf {α : Type} [DecidableEq α] {sel : BusAnswer → Option α} {good : α} {phase : α → State → State}
    {st : Stage} (hphase : ∀ r u, (phase r u).buf = u.buf)
    (h : onAnswer sel i s (fun r u =>
      if r = good then .next ((phase r u).await i st) else .next ((phase r u).await i .abort)) = .next t) :
    t.buf = s.buf := by
  obtain ⟨r, -, h⟩ | ⟨-, rfl⟩ := onAnswer_next h
  · split at h <;> exact (next_await_buf h).trans (hphase _ _)
  · rfl

theorem busStop_buf {k : State → Out} (h : busStop i s k = .next t) :
    t.buf = s.buf ∨ ∃ u, u.buf = s.buf ∧ k u = .next t := by
  obtain ⟨-, -, h⟩ | ⟨-, -, rfl⟩ | ⟨-, h⟩ := busStop_next h
  · exact .inr ⟨(s.setBusIn s.busIn.tail).stopPhase, rfl, h⟩
  · exact .inl rfl
  · exact .inr ⟨s, rfl, h⟩

/-- I2C_READ_REG (R181): a data transition writes its own byte, and the stop after a failed phase BUF[0 .. n - 1]. -/
theorem execI2cReadReg_buf_other {a : BitVec 7} {reg : Byte} {n b : Nat} (h : execI2cReadReg a reg n s = .next t)
    (hb : ¬ (b < n ∧ (s.stage = .data b ∨ s.stage = .abort))) : Mem.get? t.buf b = Mem.get? s.buf b := by
  rw [execI2cReadReg] at h
  obtain ⟨-, h⟩ | ⟨-, rfl⟩ := onPort_next h
  · split at h
    · rw [next_finish_buf h]
    cases hs : s.stage with rw [hs] at h hb
    | addr => rw [phase_buf (phase := State.addrPhase a .write) (fun _ _ => rfl) h]
    | reg => rw [phase_buf (phase := State.writePhase reg) (fun _ _ => rfl) h]
    | restart => rw [phase_buf (phase := State.startPhase a .read) (fun _ _ => rfl) h]
    | raddr => rw [phase_buf (phase := State.addrPhase a .read) (fun _ _ => rfl) h]
    | data j =>
      dsimp only at h
      split at h
      · rename_i hj
        obtain ⟨d, -, h⟩ | ⟨-, rfl⟩ := busRead_next h
        · have hne : b ≠ j := by
            rintro rfl
            exact hb ⟨hj, .inl rfl⟩
          have hkept := writeByte_buf_other h (fun _ => next_await_buf) hne
          exact hkept
        · rfl
      · obtain hkept | ⟨u, hu, h⟩ := busStop_buf h
        · rw [hkept]
        · obtain ⟨d, v, hv, h⟩ := readByte_buf h
          rw [next_finish_buf h, hv, hu]
    | abort =>
      obtain hkept | ⟨u, hu, h⟩ := busStop_buf h
      · rw [hkept]
      · have hn : ¬ b < n := fun hn => hb ⟨hn, .inr rfl⟩
        obtain ⟨-, h⟩ := zeroBuf_next h
        rw [next_finish_buf h, State.setBuf_buf, zeroed_get?, if_neg hn, hu]
    | _ =>
      dsimp only at h
      split at h
      · rw [next_finish_buf h]
      · rw [phase_buf (phase := State.startPhase a .write) (fun _ _ => rfl) h]
  · rfl

/-! ## Settled: O14, O15 -/

/-- Settles O14: the frame over all bytes, with nothing stored into a queue and BUF as it was. -/
theorem nonStoringOperationsKeepMemory : Obligations.NonStoringOperationsKeepMemory := by
  intro i s t h hwait hdrop hingress hwrite hreadReg hreadBlock
  have hbuf : writesBuf i = false := by
    cases i with
    | bufWrite j d => exact absurd rfl (hwrite j d)
    | i2cReadReg a r n => exact absurd rfl (hreadReg a r n)
    | eeReadBlock a n => exact absurd rfl (hreadBlock a n)
    | _ => rfl
  refine exec_sameBytesBut h (fun q d hstore _ => ?_) fun b _ => by rw [(exec_does h).unitFrame.buf hbuf]
  rcases hstore with hi | hi | ⟨-, hi, -⟩
  · exact hwait q d hi
  · exact hdrop q d hi
  · exact hingress d hi

/-- Settles O15: the frame over all bytes, with the head slot or the BUF bytes of each operation. -/
theorem storingOperationsKeepOtherBytes : Obligations.StoringOperationsKeepOtherBytes := by
  refine fun s t => ⟨fun q d i hi h => ?_, fun j d h => ?_, fun a len h => ?_, fun a r n h => ?_⟩
  · have hbuf : writesBuf i = false := by rcases hi with rfl | rfl | ⟨rfl, -⟩ <;> rfl
    have hq : storesInto i = some q := by rcases hi with rfl | rfl | ⟨rfl, rfl⟩ <;> rfl
    refine exec_sameBytesBut h (fun r e hstore hfull => ?_) fun b _ => by rw [(exec_does h).unitFrame.buf hbuf]
    obtain rfl : r = q := Option.some.inj (hstore.storesInto_eq.symm.trans hq)
    exact ⟨hfull, rfl, rfl⟩
  · exact exec_sameBytesBut_buf h nofun fun b => execBufWrite_buf_other h
  · exact exec_sameBytesBut_buf h nofun fun b => execEeReadBlock_buf_other h
  · exact exec_sameBytesBut_buf h nofun fun b => execI2cReadReg_buf_other h

end

/-! # The reads without side effects (20_memory.md R80) -/

section
variable {i : Instr} {s t : State}

/-- The operation of the issuing port has ended, and nothing else has changed but the count of draws. -/
def OnlyEnded (s t : State) : Prop := ∃ st d, t = State.finish st d { s with draws := t.draws }

theorem onlyEnded_finish {st : Status} {d : Half}
    (h : Host.Outcome.next (φ := Fault) (ρ := Refusal) (s.finish st d) = .next t) : OnlyEnded s t := by
  cases h; exact ⟨st, d, rfl⟩

theorem onPort_onlyEnded {o : Out} (h : onPort i s o = .next t) (ho : o = .next t → OnlyEnded s t) :
    OnlyEnded s t := by
  obtain ⟨-, h⟩ | ⟨-, rfl⟩ := onPort_next h
  · exact ho h
  · exact onlyEnded_finish rfl

/-- A read that ends the operation; a byte with no settled value counts a draw (R53). -/
theorem readByte_onlyEnded {sp : Space} {a : Nat}
    (h : readByte sp a s (fun d u => .next (u.finish .ok (zext16 d))) = .next t) : OnlyEnded s t := by
  obtain ⟨-, ⟨d, -, h⟩ | ⟨-, -, h⟩⟩ := readByte_next h
  · exact onlyEnded_finish h
  · cases h; exact ⟨_, _, rfl⟩

theorem execCsrRead_onlyEnded {j : Nat} (h : execCsrRead j s = .next t) : OnlyEnded s t := by
  refine onPort_onlyEnded h fun h => ?_
  split at h <;> exact onlyEnded_finish h

/-- EE_GET ends, or holds while a program cycle is in flight (R203, R207). -/
theorem execEeGet_onlyEnded_or_hold {a : Nat} (h : execEeGet a s = .next t) :
    OnlyEnded s t ∨ t = s.hold (.eeGet a) := by
  obtain ⟨-, h⟩ | ⟨-, rfl⟩ := onPort_next h
  · split at h
    · exact .inl (onlyEnded_finish h)
    · obtain ⟨-, hhold⟩ | ⟨-, h⟩ := whenIdle_next h
      · exact .inr hhold
      · exact .inl (readByte_onlyEnded h)
  · exact .inl (onlyEnded_finish rfl)

/-- Settles O16: each read ends with nothing else changed, and EE_GET may hold instead. -/
theorem plainReadsChangeNothing : Obligations.PlainReadsChangeNothing := by
  intro i s t hi h
  refine ⟨?_, exec_otherPortsKept h, fun hne => (exec_does h).unitFrame.draws ?_⟩
  · rcases hi with ⟨j, rfl⟩ | ⟨q, rfl⟩ | rfl | rfl | rfl | ⟨a, rfl⟩ | ⟨j, rfl⟩ | rfl
    · exact .inl (execCsrRead_onlyEnded h)
    · exact .inl (onPort_onlyEnded (i := .fifoCount q) h onlyEnded_finish)
    · exact .inl (onPort_onlyEnded (i := .execRead) h onlyEnded_finish)
    · exact .inl (onPort_onlyEnded (i := .alarmRead) h onlyEnded_finish)
    · exact .inl (onPort_onlyEnded (i := .dispatchPeek) h onlyEnded_finish)
    · exact (execEeGet_onlyEnded_or_hold h).imp_right fun hhold => ⟨⟨a, rfl⟩, hhold⟩
    · exact .inl (onPort_onlyEnded h readByte_onlyEnded)
    · exact .inl (onPort_onlyEnded (i := .nop) h onlyEnded_finish)
  · cases i with
    | bufRead j => exact absurd rfl (hne j)
    | i2cReadReg a r n => simp at hi
    | i2cWriteReg a r n => simp at hi
    | eeWriteBlock a n => simp at hi
    | _ => rfl

end

end Sys2Proof.Machine

/-! # The decoder (30_encoding.md R100 to R116) -/

namespace Sys2Proof

/-! ## What a word that a row matches is made of -/

/-- A field put back in its place is the part of the word that lies there. -/
theorem place_field (w : Word) (lo n : Nat) :
    place (field w lo n) lo = w &&& (BitVec.allOnes n).setWidth 32 <<< lo :=
  BitVec.eq_of_getLsbD_eq fun k hk => by
    rw [BitVec.getLsbD_and, ← place, getLsbD_place, getLsbD_place, BitVec.getLsbD_allOnes]
    by_cases hlo : k < lo
    · simp [hlo]
    by_cases hn : k - lo < n
    · rw [getLsbD_field hn, Nat.add_sub_cancel' (Nat.le_of_not_lt hlo)]
      simp [hk, hlo, hn]
    · simp [hn, BitVec.getLsbD_of_ge (field w lo n) (k - lo) (Nat.le_of_not_lt hn)]

theorem placeQ_fieldQ (w : Word) : placeQ (fieldQ w) = w &&& 0x00800000 := by
  rw [placeQ_eq, ← fieldQ_eq_iff.1 rfl, place_field]
  rfl

theorem placeRW_fieldRW (w : Word) : placeRW (fieldRW w) = w &&& 0x00010000 := by
  rw [placeRW_eq, ← fieldRW_eq_iff.1 rfl, place_field]
  rfl

/-- The word of what a row builds from `w`: the row's fixed bits, and the bits of `w` that the row leaves free (R102). -/
theorem encode_build : ∀ r ∈ rows, ∀ w : Word, encode (r.build w) = r.mtch ||| (w &&& ~~~r.mask) := by
  simp [rows, rowsCtrl, rowsFifo, rowsFlag, rowsI2c, rowsEe, rowsBuf, encode, place_field,
    placeQ_fieldQ, placeRW_fieldRW, BitVec.or_assoc, ← BitVec.and_or_distrib_left]

theorem encode_build_of_hits {r : Row} (hr : r ∈ rows) {w : Word} (h : Row.hits w r = true) :
    encode (r.build w) = w := by
  rw [encode_build r hr, ← eq_of_beq h, ← BitVec.and_or_distrib_left,
    BitVec.or_not_self, BitVec.and_allOnes]

theorem decode_eq_some_iff {w : Word} {i : Instr} :
    decode w = some i ↔ ∃ r ∈ rows, Row.hits w r = true ∧ r.build w = i := by
  constructor
  · intro h
    obtain ⟨r, hfind, hi⟩ := Option.map_eq_some_iff.1 h
    exact ⟨r, List.mem_of_find?_eq_some hfind, List.find?_some hfind, hi⟩
  · rintro ⟨r, hr, h, rfl⟩
    exact decode_of_hits hr h

theorem decode_eq_none_iff {w : Word} : decode w = none ↔ ∀ r ∈ rows, Row.hits w r = false := by
  simp [decode]

/-! ## Words that no row matches -/

/-- A word of a row's UNIT and OP is of that row or of none. -/
theorem decode_eq_none_of_opcode {r : Row} (hr : r ∈ rows) {w : Word} (hop : field w 24 8 = field r.mtch 24 8)
    (h : Row.hits w r = false) : decode w = none := by
  refine decode_eq_none_iff.2 fun r' hr' => Bool.eq_false_iff.2 fun h' => ?_
  have hsame : r' = r := List.inj_on_of_nodup_map opcodes_nodup hr' hr ((opcode_of_hits hr' h').trans hop)
  rw [hsame, h] at h'
  cases h'

/-- A UNIT and an OP that no row of R102 has: a unit above BUF, OP 0, or an OP past the last of its unit (R112). -/
abbrev Unassigned (unit op : BitVec 4) : Prop :=
  5 < unit.toNat ∨ op = 0 ∨ (unit = 0 ∧ 4 ≤ op.toNat) ∨ (unit = 1 ∧ 7 ≤ op.toNat) ∨ (unit = 2 ∧ 9 ≤ op.toNat) ∨
    (unit = 3 ∧ 9 ≤ op.toNat) ∨ (unit = 4 ∧ 5 ≤ op.toNat) ∨ (unit = 5 ∧ 3 ≤ op.toNat)

theorem row_not_unassigned : ∀ r ∈ rows, ¬ Unassigned (field r.mtch 28 4) (field r.mtch 24 4) := by decide

theorem mask_covers_unit_and_op :
    ∀ r ∈ rows, field r.mask 28 4 = BitVec.allOnes 4 ∧ field r.mask 24 4 = BitVec.allOnes 4 := by decide

theorem decode_eq_none_of_unassigned {w : Word} (hw : Unassigned (field w 28 4) (field w 24 4)) : decode w = none := by
  refine decode_eq_none_iff.2 fun r hr => Bool.eq_false_iff.2 fun h => row_not_unassigned r hr ?_
  obtain ⟨hunit, hop⟩ := mask_covers_unit_and_op r hr
  rw [← eq_of_beq h, field_and, field_and, hunit, hop, BitVec.and_allOnes, BitVec.and_allOnes]
  exact hw

/-- TX_EGRESS has Q = 1 (R112). -/
theorem decode_txEgress_rx : decode 0x16000000 = none := by decide

/-- RX_INGRESS has no Q field: bit 23 is reserved (R112). -/
theorem decode_rxIngress_tx (d : Byte) : decode (0x15800000 ||| d.setWidth 32) = none := by
  have hplace : d.setWidth 32 = place d 0 := (BitVec.shiftLeft_zero _).symm
  refine decode_eq_none_of_opcode (rowOf_mem (.rxIngress 0)) ?_ (beq_eq_false_iff_ne.2 ?_)
  · rw [hplace, field_or, field_place_apart d (by decide)]
    rfl
  · rw [hplace, BitVec.and_or_distrib_right, place_and_eq_zero (by rfl)]
    decide

/-! ## Settled: O1, O2, O3, O5 -/

/-- Settles O1: the word of an operation matches the operation's row, and its fields are the operands. -/
theorem decodeOfEncode : Obligations.DecodeOfEncode := fun _ h => decode_encode h

/-- Settles O2: the fixed bits of the row that matches and the bits the row leaves free are the whole word. -/
theorem encodeOfDecode : Obligations.EncodeOfDecode := by
  intro w i h
  refine ⟨Machine.wellFormed_of_decode h, ?_⟩
  obtain ⟨r, hr, hhits, rfl⟩ := decode_eq_some_iff.1 h
  exact encode_build_of_hits hr hhits

/-- Settles O3: a word has the UNIT and OP of each row it matches, and no two rows have the same. -/
theorem noWordMatchesTwoRows : Obligations.NoWordMatchesTwoRows := by
  refine (List.pairwise_map.1 opcodes_nodup).imp_of_mem ?_
  rintro r r' hr hr' hne w ⟨h, h'⟩
  exact hne ((opcode_of_hits hr h).trans (opcode_of_hits hr' h').symm)

/-- Settles O5: the decoder run on the nine words. -/
theorem exampleWordsDecode : Obligations.ExampleWordsDecode := by
  unfold Obligations.ExampleWordsDecode
  decide

end Sys2Proof

namespace Sys2Proof.Machine

/-! ## Words refused as ILLEGAL: O4 -/

/-- A port whose next word is ILLEGAL ends it with ERR_ILLEGAL (R110). -/
theorem step_of_illegal {s : State} {p : Port} {rest : List Agent} {w : Word} {ws : List Word}
    (hs : s.sched = .port p :: rest) (hp : s.pend.get p = none) (hw : s.prog.get p = w :: ws) (hi : decode w = none) :
    step s = .next (State.finish .errIllegal 0 { s with sched := rest, cur := p, prog := s.prog.set p ws }) := by
  have hissue : ((s.setSched rest).setCur p).issue =
      .illegal (((s.setSched rest).setCur p).setProg (s.prog.set p ws)) := by
    simp [State.issue, hp, hw, State.decoded_illegal hi]
  simp only [step, hs, hissue]
  rfl

theorem refusedAsIllegal_of_decode {w : Word} (h : decode w = none) : RefusedAsIllegal w :=
  ⟨h, fun _ _ _ _ hs hp hw => step_of_illegal hs hp hw h⟩

/-- Settles O4: the row of a word's UNIT and OP is the only one the word could match, and an unassigned UNIT or OP has
no row. -/
theorem reservedAndUnassignedWordsAreIllegal : Obligations.ReservedAndUnassignedWordsAreIllegal := by
  refine ⟨fun r hr w hop hne => refusedAsIllegal_of_decode ?_, fun w hw => refusedAsIllegal_of_decode ?_⟩
  · exact decode_eq_none_of_opcode hr hop (beq_eq_false_iff_ne.2 hne)
  · obtain hcode | rfl | ⟨d, rfl⟩ : Unassigned (field w 28 4) (field w 24 4) ∨
        w = 0x16000000 ∨ ∃ d : Byte, w = 0x15800000 ||| d.setWidth 32 := by
      simpa only [Unassigned, or_assoc] using hw
    · exact decode_eq_none_of_unassigned hcode
    · exact decode_txEgress_rx
    · exact decode_rxIngress_tx d

end Sys2Proof.Machine

namespace Sys2Proof

/-- An operand at bit 0 is the operand itself, in a word. -/
theorem place_zero {n : Nat} (v : BitVec n) : place v 0 = v.setWidth 32 := BitVec.shiftLeft_zero _

end Sys2Proof

namespace Sys2Proof.Machine

/-! # The transitions of the FIFO unit (40_fifo.md R120 to R139) -/

section
variable {s t u : State} {q : QueueId} {d : Byte} {st : Status} {x : Half}

/-! ## The shared operations of the unit, as equations -/

theorem enqueue_eq_pushed {k : State → Out} (hs : s.Inv) : enqueue q d s k = k (s.pushed q d) := by
  obtain ⟨hhead, -⟩ := Queue.InRange.of_inv hs q
  cases q <;> exact enqueue_eq hhead

/-- The oldest byte of a queue that is not empty (R124). -/
def State.oldest (s : State) (q : QueueId) : Byte := slotByte (s.queue q).mem (s.queue q).tail.toNat

theorem dequeue_eq_popped {k : Byte → State → Out} (hs : s.Inv) :
    dequeue q s k = k (s.oldest q) (s.popped q) := by
  obtain ⟨-, htail⟩ := Queue.InRange.of_inv hs q
  exact dequeue_eq htail (s.peek_slot q _)

/-- The high-water check writes FC_STATE (R138). -/
theorem afterStore_eq_setFc (s : State) (q : QueueId) : s.afterStore q = s.setFc (fcAfterStore q s s) := by
  cases q with
  | tx => rfl
  | rx =>
    simp only [State.afterStore, State.rxStored, fcAfterStore, true_and, Bool.and_eq_true, beq_iff_eq,
      decide_eq_true_eq, and_assoc]
    split <;> rfl

/-- The low-water check writes FC_STATE (R139). -/
theorem afterPop_eq_setFc (s : State) (q : QueueId) : s.afterPop q = s.setFc (fcAfterPop q s s) := by
  cases q with
  | tx => rfl
  | rx =>
    simp only [State.afterPop, State.rxPopped, fcAfterPop, true_and, Bool.and_eq_true, beq_iff_eq,
      decide_eq_true_eq, and_assoc]
    split <;> rfl

/-! ## What a store and a take leave -/

theorem pushed_peek (s : State) (q : QueueId) (d : Byte) (sp : Space) (a : Nat) :
    (s.pushed q d).peek sp a =
      if sp = slotSpace q ∧ a = (s.queue q).head.toNat then some d else s.peek sp a := by
  rw [← State.peek_write]
  refine State.peek_congr ?_ a
  cases q <;> cases sp <;> rfl

/-- A state with the memory and the queues of `enqueue(Q, d)` (R120). -/
theorem storedInto_of_pushed (hmem : ∀ sp, t.mem sp = (s.pushed q d).mem sp)
    (hqueue : ∀ r, t.queue r = (s.pushed q d).queue r) : StoredInto q d s t := by
  have hpeek (sp : Space) (a : Nat) : t.peek sp a = (s.pushed q d).peek sp a := State.peek_congr (hmem sp) a
  have hq := (hqueue q).trans (State.setQueue_queue_same _ q s)
  refine ⟨?_, fun sp a ha => ?_, by rw [hq], by rw [hq], fun r hr => ?_⟩
  · rw [hpeek, pushed_peek, if_pos ⟨rfl, rfl⟩]
  · rw [hpeek, pushed_peek, if_neg ha]
  · exact (hqueue r).trans (State.setQueue_queue_other _ q s r hr)

/-- A state with the queues of `dequeue(Q)` (R124). -/
theorem takenFrom_of_popped (hqueue : ∀ r, t.queue r = (s.popped q).queue r) : TakenFrom q (s.oldest q) s t :=
  ⟨s.peek_slot q _, (hqueue q).trans (State.setQueue_queue_same _ q s),
    fun r hr => (hqueue r).trans (State.setQueue_queue_other _ q s r hr)⟩

theorem sameBytes_of_mem (h : ∀ sp, t.mem sp = s.mem sp) : SameBytes s t := fun sp a _ => State.peek_congr (h sp) a

/-- An operation that ends having written the FIFO unit and nothing else. -/
theorem ended_and_onlyFifo (hu : u = s.setFifo u.fifo) :
    Ended s (u.finish st x) st x ∧ OnlyFifo s (u.finish st x) := by
  rw [hu]
  exact ⟨⟨rfl, rfl, rfl⟩, rfl, rfl, rfl, rfl, rfl, rfl, rfl, rfl, rfl, rfl, rfl⟩

/-- Everything that an operation which ends with a store into Q leaves (R120, R138). -/
theorem store_effect (ht : t = ((s.pushed q d).afterStore q).finish .ok x) :
    StoredInto q d s t ∧ Ended s t .ok x ∧ OnlyFifo s t ∧ t.fifo.rxOvf = s.fifo.rxOvf ∧
      t.fifo.fc = fcAfterStore q s t := by
  rw [afterStore_eq_setFc] at ht
  subst ht
  obtain ⟨hend, honly⟩ := ended_and_onlyFifo (s := s) (st := .ok) (x := x)
    (u := (s.pushed q d).setFc (fcAfterStore q (s.pushed q d) (s.pushed q d))) (by cases q <;> rfl)
  exact ⟨storedInto_of_pushed (by rintro ⟨⟩ <;> rfl) (by rintro ⟨⟩ <;> rfl), hend, honly,
    by cases q <;> rfl, by cases q <;> rfl⟩

/-- Everything that an operation which ends with a pop of Q leaves (R124, R139). -/
theorem pop_effect (ht : t = ((s.popped q).afterPop q).finish .ok x) :
    TakenFrom q (s.oldest q) s t ∧ SameBytes s t ∧ Ended s t .ok x ∧ OnlyFifo s t ∧
      t.fifo.rxOvf = s.fifo.rxOvf ∧ t.fifo.fc = fcAfterPop q s t := by
  rw [afterPop_eq_setFc] at ht
  subst ht
  obtain ⟨hend, honly⟩ := ended_and_onlyFifo (s := s) (st := .ok) (x := x)
    (u := (s.popped q).setFc (fcAfterPop q (s.popped q) (s.popped q))) (by cases q <;> rfl)
  exact ⟨takenFrom_of_popped (by rintro ⟨⟩ <;> rfl), sameBytes_of_mem (by cases q <;> rintro ⟨⟩ <;> rfl),
    hend, honly, by cases q <;> rfl, by cases q <;> rfl⟩

/-- Everything that a TX_EGRESS which sends the oldest byte of TX leaves (R124, R135). -/
theorem send_effect (ht : t = ((s.popped .tx).emitTx (s.oldest .tx)).finish .ok x) :
    TakenFrom .tx (s.oldest .tx) s t ∧ SameBytes s t ∧ Ended s t .ok x ∧ OnlyFifo s { t with logs := s.logs } ∧
      t.logs = { s.logs with txLine := s.logs.txLine ++ [s.oldest .tx] } ∧ t.fifo.rxOvf = s.fifo.rxOvf ∧
      t.fifo.fc = s.fifo.fc := by
  subst ht
  obtain ⟨hend, honly⟩ := ended_and_onlyFifo (s := s) (u := s.popped .tx) (st := .ok) (x := x) rfl
  exact ⟨takenFrom_of_popped (by rintro ⟨⟩ <;> rfl), sameBytes_of_mem (by rintro ⟨⟩ <;> rfl), hend, honly,
    rfl, rfl, rfl⟩

end

/-! ## Settled: O23 to O28 -/

/-- Settles O23: a store (`store_effect`), the abort, and the hold. -/
theorem pushWaitTransition : Obligations.PushWaitTransition := by
  intro d
  have hword : encode (.fifoPushWait .tx d) = 0x11800000 ||| d.setWidth 32 := by rw [encode, place_zero]; rfl
  refine ⟨hword ▸ decode_encode rfl, fun q p => by cases q <;> simp [allowed], fun s hs hcur => ?_⟩
  have hport : exec (.fifoPushWait .tx d) s = _ := onPort_allowed (by simp [allowed, hcur])
  refine ⟨fun hfull => ?_, fun hfull habort => ?_, fun hfull habort => ?_⟩
  · refine ⟨_, ?_, store_effect rfl⟩
    simp [hport, hfull, enqueue_eq_pushed hs, State.afterStore]
  · have hreset : s.flag.has .reset = true := habort
    simp [hport, hfull, hreset]
  · have hreset : s.flag.has .reset = false := habort
    rw [← hcur]
    simp only [hport, hfull, hreset]
    rfl

/-- Settles O24: a store (`store_effect`), or a drop, which sets RX_OVF on RX (R42). -/
theorem pushDropTransition : Obligations.PushDropTransition := by
  intro q d
  have hword : encode (.fifoPushDrop q d) = 0x12000000 ||| placeQ q ||| d.setWidth 32 := by rw [encode, place_zero]
  have hallowed (p : Port) : allowed (.fifoPushDrop q d) p = true ↔ p = producer q := by
    cases q <;> simp [allowed, producer]
  refine ⟨?_, hallowed, fun s hs hcur => ?_⟩
  · have hdecode := decode_encode (i := .fifoPushDrop q d) rfl
    rw [hword] at hdecode
    cases q <;> exact hdecode
  have hport : exec (.fifoPushDrop q d) s = _ := onPort_allowed ((hallowed _).2 hcur)
  refine ⟨fun hfull => ⟨_, ?_, store_effect rfl⟩, fun hfull => ?_⟩
  · simp [hport, hfull, enqueue_eq_pushed hs]
  · simp only [hport, hfull]
    cases q <;> rfl

/-- Settles O25: a pop (`pop_effect`), or only the low-water check. -/
theorem popTransition : Obligations.PopTransition := by
  intro q
  have hallowed (p : Port) : allowed (.fifoPop q) p = true ↔ p = consumer q := by
    cases q <;> simp [allowed, consumer]
  have hdecode : decode (encode (.fifoPop q)) = some (.fifoPop q) := decode_encode rfl
  refine ⟨by cases q <;> exact hdecode, hallowed, fun s hs hcur => ?_⟩
  have hport : exec (.fifoPop q) s = _ := onPort_allowed ((hallowed _).2 hcur)
  refine ⟨fun hempty => ?_, fun hempty => ⟨_, s.oldest q, ?_, pop_effect rfl⟩⟩
  · rw [hport, if_pos hempty, afterPop_eq_setFc]
    rfl
  · simp [hport, hempty, dequeue_eq_popped hs]

/-- Settles O26: the occupancy is below the capacity, which is at most 256. -/
theorem countTransition : Obligations.CountTransition := by
  intro q
  have hdecode : decode (encode (.fifoCount q)) = some (.fifoCount q) := decode_encode rfl
  refine ⟨by cases q <;> exact hdecode, fun s hs => ⟨onPort_allowed (i := .fifoCount q) (s := s) rfl, ?_⟩⟩
  have hlt : (s.queue q).count (capacity s.cfg q) < capacity s.cfg q := Queue.count_lt (.of_inv hs q)
  have hcap := hs.cfg.capacity_le q
  exact ⟨Nat.le_sub_one_of_lt hlt, (BitVec.toNat_ofNat _ _).trans (Nat.mod_eq_of_lt (by omega))⟩

/-- Settles O27: a command is intercepted before RX is looked at, and another byte is stored (`store_effect`) or
dropped. -/
theorem ingressTransition : Obligations.IngressTransition := by
  intro d
  have hword : encode (.rxIngress d) = 0x15000000 ||| d.setWidth 32 := by rw [encode, place_zero]
  refine ⟨hword ▸ decode_encode rfl, fun p => by simp [allowed], fun s hs hcur => ?_⟩
  have hport : exec (.rxIngress d) s = _ := onPort_allowed (by simp [allowed, hcur])
  refine ⟨fun c hc => ?_, fun hc hfull => ⟨_, ?_, store_effect rfl⟩, fun hc hfull => ?_⟩
  · rw [hport, hc]
    rfl
  · simp [hport, hc, hfull, enqueue_eq_pushed hs, State.afterStore]
  · simp only [hport, hc, hfull]
    rfl

/-- Settles O28: a flow-control character that is pending, the oldest byte of TX, or nothing to send. -/
theorem egressTransition : Obligations.EgressTransition := by
  refine ⟨decode_encode (i := .txEgress) rfl, fun p => by simp [allowed], fun s hs hcur => ?_⟩
  have hport : exec .txEgress s = _ := onPort_allowed (by simp [allowed, hcur])
  refine ⟨fun hen hfc => ?_, fun hen hfc => ?_, fun hfc => ?_⟩
  · simp only [hport, hen, hfc]
    rfl
  · simp only [hport, hen, hfc]
    rfl
  · obtain ⟨hxoff, hxon⟩ : ¬ (s.cfg.fcEnable && s.fifo.fc == .sendXoff) = true ∧
        ¬ (s.cfg.fcEnable && s.fifo.fc == .sendXon) = true := by
      simpa [and_or_left, not_or] using hfc
    rw [hport, if_neg hxoff, if_neg hxon]
    refine ⟨fun hempty => ?_, fun hempty => ⟨_, s.oldest .tx, ?_, send_effect rfl⟩⟩
    · simp [hempty, Config.emptySentinel]
    · simp [hempty, dequeue_eq_popped hs]

/-! # The flow-control state (10_state.md R43; 40_fifo.md R138 to R141) -/

section
variable {i : Instr} {s t u : State}

/-- FC_STATE after a TX_EGRESS of TXI: a character that is pending has been sent (R135). -/
def FcState.afterEgress : FcState → FcState
  | .xonSent => .xonSent
  | .sendXoff => .xoffSent
  | .xoffSent => .xoffSent
  | .sendXon => .xonSent

theorem txEgress_fc (hs : s.Inv) (hcur : s.cur = .txi) (h : exec .txEgress s = .next t) :
    t.fifo.fc = s.fifo.fc.afterEgress := by
  obtain ⟨-, -, hegress⟩ := egressTransition
  obtain ⟨hxoff, hxon, hdata⟩ := hegress s hs hcur
  have enabled (hfc : s.fifo.fc ≠ .xonSent) : s.cfg.fcEnable = true := by
    by_contra hdis
    exact hfc (hs.flowControl (Bool.eq_false_iff.2 hdis))
  have kept (hno : s.fifo.fc ≠ .sendXoff ∧ s.fifo.fc ≠ .sendXon) : t.fifo.fc = s.fifo.fc := by
    obtain ⟨hempty, hsend⟩ := hdata (by simp [hno])
    cases he : s.isEmpty .tx with
    | true =>
      cases (hempty he).symm.trans h
      rfl
    | false =>
      obtain ⟨t', d, h', -, -, -, -, -, -, hfc⟩ := hsend he
      cases h'.symm.trans h
      exact hfc
  cases hfc : s.fifo.fc with
  | xonSent => rw [kept (by simp [hfc]), hfc]; rfl
  | xoffSent => rw [kept (by simp [hfc]), hfc]; rfl
  | sendXoff =>
    cases (hxoff (enabled (by simp [hfc])) hfc).symm.trans h
    rfl
  | sendXon =>
    cases (hxon (enabled (by simp [hfc])) hfc).symm.trans h
    rfl

theorem fifoPop_fc {q : QueueId} (hs : s.Inv) (hcur : s.cur = consumer q) (h : exec (.fifoPop q) s = .next t) :
    t.fifo.fc = fcAfterPop q s t := by
  obtain ⟨-, -, hpop⟩ := popTransition q
  obtain ⟨hempty, htake⟩ := hpop s hs hcur
  cases he : s.isEmpty q with
  | true =>
    cases (hempty he).symm.trans h
    rfl
  | false =>
    obtain ⟨t', d, h', -, -, -, -, -, hfc⟩ := htake he
    cases h'.symm.trans h
    exact hfc

theorem held_length (s : State) (q : QueueId) : (s.held q).length = s.count q := by simp [State.held]

/-- Only an operation that stores into a queue makes it longer (R125). -/
theorem count_le_of_not_stores {q : QueueId} (hs : s.Inv) (h : exec i s = .next t) (hi : ∀ d, ¬ Stores s q d i) :
    t.count q ≤ s.count q := by
  rw [← held_length, ← held_length]
  rcases queueOrder i s t q hs h with hkept | ⟨d, -, -, hstore⟩ | ⟨d, htaken, -⟩ | ⟨-, hreset⟩
  · rw [hkept]
  · exact absurd hstore (hi d)
  · simp [htaken]
  · simp [hreset]

theorem count_congr (hfifo : t.fifo = s.fifo) (hcfg : t.cfg = s.cfg) (q : QueueId) : t.count q = s.count q := by
  rw [State.count, State.count, State.queue_congr hfifo, hcfg]

/-- A store into RX makes it longer by its byte and is followed by the high-water check; any other operation but
TX_EGRESS, FIFO_POP RX and CTRL_RESET leaves FC_STATE as it is and RX no longer. -/
theorem exec_fc_cases (hs : s.Inv) (h : exec i s = .next t) (hreset : i ≠ .ctrlReset)
    (hegress : ¬ (i = .txEgress ∧ s.cur = .txi)) (hpop : ¬ (i = .fifoPop .rx ∧ s.cur = .main)) :
    (t.fifo.fc = s.fifo.fc ∧ t.count .rx ≤ s.count .rx) ∨
      (t.fifo.fc = fcAfterStore .rx s t ∧ t.count .rx = s.count .rx + 1) := by
  have unchanged {u : State} (hu : Changes i s u) : u.fifo.fc = s.fifo.fc ∧ u.count .rx ≤ s.count .rx := by
    obtain ⟨hfifo, -⟩ := hu.fifo_flag
    exact ⟨congrArg FifoUnit.fc hfifo, (count_congr hfifo hu.unitFrame.cfg_eq .rx).le⟩
  cases exec_does h with
  | holds => exact .inl ⟨rfl, le_rfl⟩
  | refused => exact .inl ⟨rfl, le_rfl⟩
  | goesOn _ hu =>
    have hkept := unchanged hu
    exact .inl hkept
  | @ends u st x hi hu =>
    cases hu with
    | quiet _ _ hu =>
      have hkept := unchanged hu
      exact .inl hkept
    | reset => exact absurd rfl hreset
    | flag => exact .inl ⟨rfl, le_rfl⟩
    | stored q d _ hstore hfull =>
      cases q with
      | tx => exact .inl ⟨rfl, le_rfl⟩
      | rx =>
        obtain ⟨-, -, -, -, hfc⟩ := store_effect (s := s) (q := .rx) (d := d) (x := x) rfl
        refine .inr ⟨hfc, ?_⟩
        rw [afterStore_eq_setFc]
        exact Queue.count_push (hs.cfg.capacity_le .rx) (.of_inv hs .rx) hfull _
    | dropped q => cases q <;> exact .inl ⟨rfl, le_rfl⟩
    | nothingToPop q =>
      cases q with
      | rx => exact absurd ⟨rfl, cur_eq_consumer hi⟩ hpop
      | tx => exact .inl ⟨rfl, le_rfl⟩
    | taken q =>
      cases q with
      | rx => exact absurd ⟨rfl, cur_eq_consumer hi⟩ hpop
      | tx => exact .inl ⟨rfl, le_rfl⟩
    | sent => exact absurd ⟨rfl, by simpa [allowed] using hi⟩ hegress
    | sentFlowControl => exact absurd ⟨rfl, by simpa [allowed] using hi⟩ hegress

end

/-- Settles O29: TX_EGRESS of TXI (`txEgress_fc`), FIFO_POP RX of MAIN (`fifoPop_fc`), and every other operation
(`exec_fc_cases`), each over the four values of FC_STATE. -/
theorem flowControlTransitions : Obligations.FlowControlTransitions := by
  intro i s t hs h
  have hdoes := exec_does h
  refine ⟨fun hdis => ?_, fun hreset => ?_⟩
  · have hdis' : t.cfg.fcEnable = false := by rw [hdoes.unitFrame.cfg_eq, hdis]
    rw [hs.flowControl hdis, (hdoes.unitsOk hs.unitsOk).flowControl hdis']
  simp only [held_length]
  by_cases hegress : i = .txEgress ∧ s.cur = .txi
  · obtain ⟨rfl, hcur⟩ := hegress
    have hcount : t.count .rx ≤ s.count .rx := count_le_of_not_stores hs h (by simp [Stores])
    rw [txEgress_fc hs hcur h]
    cases s.fifo.fc <;> simp [FcState.afterEgress, hcur, hcount.not_gt]
  by_cases hpop : i = .fifoPop .rx ∧ s.cur = .main
  · obtain ⟨rfl, hcur⟩ := hpop
    have hcount : t.count .rx ≤ s.count .rx := count_le_of_not_stores hs h (by simp [Stores])
    rw [fifoPop_fc (q := .rx) hs hcur h, fcAfterPop]
    cases s.fifo.fc <;> simp [hcur, hcount.not_gt]
  have hnoPop (low : Prop) : ¬ (i = .fifoPop .rx ∧ s.cur = .main ∧ low) := fun ⟨hi, hcur, _⟩ => hpop ⟨hi, hcur⟩
  rcases exec_fc_cases hs h hreset hegress hpop with ⟨hfc, hcount⟩ | ⟨hfc, hcount⟩
  · rw [hfc]
    cases s.fifo.fc <;> simp [hegress, hnoPop, hcount.not_gt]
  · rw [hfc, fcAfterStore]
    cases s.fifo.fc <;> simp [hegress, hnoPop, hcount]

end Sys2Proof.Machine

namespace Sys2Proof

/-- An operation with one operand, at bit 0 of its word, is decoded from that word (R102, R103). -/
theorem decode_of_operand {n : Nat} {i : Instr} {c : Word} {v : BitVec n} (hi : WellFormed i = true)
    (hword : encode i = c ||| place v 0) : decode (c ||| v.setWidth 32) = some i := by
  rw [← place_zero, ← hword, decode_encode hi]

end Sys2Proof

namespace Sys2Proof.Machine

/-! # The FLAG unit (41_event_flags.md) -/

/-! ## The results of the reads (R156, R163) -/

/-- A field whose bits are those of `v` is `v`. -/
theorem extractLsb'_eq_of_getLsbD {n m lo : Nat} {d : BitVec n} {v : BitVec m}
    (h : ∀ k < m, d.getLsbD (lo + k) = v.getLsbD k) : d.extractLsb' lo m = v :=
  BitVec.eq_of_getLsbD_eq fun k hk => by simp [hk, h]

theorem alarmData_getLsbD (f : FlagUnit) {k : Nat} (hk : k < 16) :
    f.alarmData.getLsbD k = (f.alarm.getLsbD k || (f.pending && decide (k = 8))) := by
  rw [FlagUnit.alarmData, BitVec.getLsbD_or, getLsbD_bitAt (by decide), zext16, BitVec.getLsbD_setWidth]
  simp [hk]

/-- The result of ALARM_READ, field by field (R156). -/
theorem alarmData_fields (f : FlagUnit) :
    f.alarmData.extractLsb' 0 6 = f.alarm ∧ f.alarmData.extractLsb' 6 2 = 0 ∧ f.alarmData.getLsbD 8 = f.pending ∧
      f.alarmData.extractLsb' 9 7 = 0 := by
  refine ⟨extractLsb'_eq_of_getLsbD fun k hk => ?_, extractLsb'_eq_of_getLsbD fun k hk => ?_, ?_,
    extractLsb'_eq_of_getLsbD fun k hk => ?_⟩ <;> rw [alarmData_getLsbD f (by omega)]
  · have hbit : k ≠ 8 := by omega
    simp [hbit]
  · have hbit : 6 + k ≠ 8 := by omega
    simp [hbit]
  · simp
  · have hbit : 9 + k ≠ 8 := by omega
    simp [hbit, BitVec.getLsbD_of_ge f.alarm (9 + k) (by omega)]

/-- ALARM above a dispatch code is a byte above a byte (R163). -/
theorem alarm_above_code (a : BitVec 6) (c : BitVec 4) :
    (zext16 a <<< 8) ||| zext16 c = a.setWidth 8 ++ c.setWidth 8 :=
  BitVec.eq_of_getLsbD_eq fun k hk => by
    simp only [zext16, BitVec.getLsbD_or, BitVec.getLsbD_shiftLeft, BitVec.getLsbD_setWidth, BitVec.getLsbD_append]
    by_cases hlow : k < 8
    · simp [hlow, hk]
    · simp [hlow, hk, BitVec.getLsbD_of_ge c k (by omega), show k - 8 < 16 ∧ k - 8 < 8 by omega]

theorem dispatchData_eq (f : FlagUnit) :
    f.dispatchData = (if f.prio.code = 2 then f.alarm.setWidth 8 else 0#8) ++ f.prio.code.setWidth 8 := by
  have halone (c : BitVec 4) : zext16 c = 0#8 ++ c.setWidth 8 := by
    simpa [zext16] using alarm_above_code 0 c
  unfold FlagUnit.dispatchData
  cases f.prio with
  | none => exact halone 0
  | alarm => exact alarm_above_code f.alarm 2
  | exec c => cases c <;> exact halone _

/-- The result of DISPATCH_PEEK and DISPATCH_TAKE, field by field (R163, R164). -/
theorem dispatchData_fields (f : FlagUnit) :
    f.dispatchData.extractLsb' 0 4 = f.prio.code ∧ f.dispatchData.extractLsb' 4 4 = 0 ∧
      f.dispatchData.extractLsb' 8 8 = (if f.prio.code = 2 then f.alarm.setWidth 8 else 0) := by
  rw [dispatchData_eq]
  refine ⟨?_, ?_, BitVec.extractLsb'_append_eq_left⟩ <;> rw [BitVec.extractLsb'_append_eq_of_add_le (by decide)]
  · rw [BitVec.extractLsb'_setWidth_of_le (by decide), BitVec.extractLsb'_eq_self]
  · exact extractLsb'_eq_of_getLsbD fun k _ => by simp

/-! ## Settled: O30 to O32 -/

/-- ALARM_RAISE sets the latch exactly for a nonzero mask (R154). -/
theorem raiseAlarm_eq (m : BitVec 6) (f : FlagUnit) :
    f.raiseAlarm m = { f with alarm := f.alarm ||| m, pending := if m ≠ 0 then true else f.pending } := by
  by_cases hm : m = 0
  · simp [FlagUnit.raiseAlarm, hm]
  · rw [if_pos hm, FlagUnit.raiseAlarm, bne_iff_ne.2 hm, Bool.or_true]

/-- Settles O30: the port check passes, and the transition is the model's. -/
theorem execRaiseAndClearTransitions : Obligations.ExecRaiseAndClearTransitions := by
  intro m
  refine ⟨decode_of_operand rfl rfl, decode_of_operand rfl rfl, fun p => ⟨rfl, by simp [allowed]⟩,
    fun s => ⟨onPort_allowed (i := .execRaise m) (s := s) rfl, fun hcur => ?_⟩⟩
  exact onPort_allowed (i := .execClear m) (by simp [allowed, hcur])

/-- Settles O31: ALARM_RAISE sets the latch for a nonzero mask (`raiseAlarm_eq`), and R155 is part of the invariant. -/
theorem alarmRaiseAndClearTransitions : Obligations.AlarmRaiseAndClearTransitions := by
  refine ⟨fun m => ⟨decode_of_operand rfl rfl, fun p => rfl, fun s => ?_⟩, decode_encode (i := .alarmClear) rfl,
    fun p => by simp [allowed], fun s hcur => onPort_allowed (i := .alarmClear) (by simp [allowed, hcur]),
    fun s hs => hs.alarmLatch⟩
  have hport : exec (.alarmRaise m) s = _ := onPort_allowed (i := .alarmRaise m) (s := s) rfl
  rw [hport, raiseAlarm_eq]
  rfl

/-- Settles O32: no port is refused a read, and the fields of ALARM_READ's result are `alarmData_fields`. -/
theorem flagReadTransitions : Obligations.FlagReadTransitions :=
  ⟨decode_encode (i := .execRead) rfl, decode_encode (i := .alarmRead) rfl, fun _ => ⟨rfl, rfl⟩, fun s =>
    ⟨onPort_allowed (i := .execRead) (s := s) rfl, s.flag.alarmData,
      onPort_allowed (i := .alarmRead) (s := s) rfl, alarmData_fields s.flag⟩⟩

/-! # The dispatcher (41_event_flags.md R160 to R165) -/

/-- What a dispatch code stands for is pending (R161). -/
def FlagUnit.awaits (f : FlagUnit) : DispatchCode → Bool
  | .none => false
  | .alarm => f.pending
  | .exec c => f.has c

/-- The codes that stand for something, in the order of their numbers (R161). -/
def dispatchOrder : List DispatchCode :=
  [.exec .reset, .alarm, .exec .safetyDoor, .exec .motionCancel, .exec .feedHold, .exec .cycleStart,
    .exec .cycleStop, .exec .statusReport]

theorem dispatchOrder_sorted : dispatchOrder.Pairwise fun c c' => c.code.toNat < c'.code.toNat := by decide

theorem mem_dispatchOrder {f : FlagUnit} {c : DispatchCode} (h : f.awaits c = true) : c ∈ dispatchOrder := by
  cases c with
  | none => cases h
  | alarm => decide
  | exec c => cases c <;> decide

theorem getD_find?_cons {α : Type} (p : α → Bool) (x d : α) (l : List α) :
    ((x :: l).find? p).getD d = if p x then x else (l.find? p).getD d := by
  cases h : p x <;> simp [h]

/-- The dispatcher looks for the first code in the order of the codes that is pending (R162). -/
theorem prio_eq_find (f : FlagUnit) : f.prio = (dispatchOrder.find? f.awaits).getD .none := by
  simp only [dispatchOrder, getD_find?_cons]
  rfl

theorem awaits_prio {f : FlagUnit} (h : f.prio ≠ .none) : f.awaits f.prio = true := by
  rw [prio_eq_find] at h ⊢
  cases hfind : dispatchOrder.find? f.awaits with
  | none => exact absurd (by rw [hfind]; rfl) h
  | some c => exact List.find?_some hfind

theorem prio_eq_none_iff_awaits {f : FlagUnit} : f.prio = .none ↔ ∀ c, f.awaits c = false := by
  rw [prio_eq_none_iff, exec_eq_zero_iff]
  refine ⟨fun ⟨hexec, hpending⟩ c => ?_, fun h => ⟨fun c => h (.exec c), h .alarm⟩⟩
  cases c with
  | none => rfl
  | alarm => exact hpending
  | exec c => exact hexec c

/-- Every code that is pending, but the one the dispatcher returns, is above that one (R162). -/
theorem prio_code_lt {f : FlagUnit} {c : DispatchCode} (h : f.awaits c = true) (hne : c ≠ f.prio) :
    f.prio.code.toNat < c.code.toNat := by
  rw [prio_eq_find] at hne ⊢
  cases hfind : dispatchOrder.find? f.awaits with
  | none => exact absurd h (List.find?_eq_none.1 hfind c (mem_dispatchOrder h))
  | some p =>
    rw [hfind] at hne
    obtain ⟨-, before, after, horder, hbefore⟩ := List.find?_eq_some_iff_append.1 hfind
    have hc : c ∈ before ∨ c = p ∨ c ∈ after := by simpa [horder] using mem_dispatchOrder h
    have hsorted := dispatchOrder_sorted
    rw [horder, List.pairwise_append, List.pairwise_cons] at hsorted
    obtain ⟨-, ⟨hafter, -⟩, -⟩ := hsorted
    obtain hc | hc | hc := hc
    · exact absurd h (by simpa using hbefore c hc)
    · exact absurd hc hne
    · exact hafter c hc

/-- No code that is pending is below the one the dispatcher returns (R162). -/
theorem prio_code_le {f : FlagUnit} {c : DispatchCode} (h : f.awaits c = true) :
    f.prio.code.toNat ≤ c.code.toNat := by
  by_cases hc : c = f.prio
  · rw [hc]
  · exact (prio_code_lt h hc).le

/-- The numbers of the codes that are pending, written out (R161). -/
def FlagUnit.PendingCode (f : FlagUnit) (k : Nat) : Prop :=
  (k = 1 ∧ f.exec.getLsbD 4 = true) ∨ (k = 2 ∧ f.pending = true) ∨ (k = 3 ∧ f.exec.getLsbD 5 = true) ∨
    (k = 4 ∧ f.exec.getLsbD 6 = true) ∨ (k = 5 ∧ f.exec.getLsbD 3 = true) ∨ (k = 6 ∧ f.exec.getLsbD 1 = true) ∨
    (k = 7 ∧ f.exec.getLsbD 2 = true) ∨ (k = 8 ∧ f.exec.getLsbD 0 = true)

theorem pendingCode_iff {f : FlagUnit} {k : Nat} :
    f.PendingCode k ↔ ∃ c : DispatchCode, c.code.toNat = k ∧ f.awaits c = true := by
  constructor
  · rintro (⟨rfl, h⟩ | ⟨rfl, h⟩ | ⟨rfl, h⟩ | ⟨rfl, h⟩ | ⟨rfl, h⟩ | ⟨rfl, h⟩ | ⟨rfl, h⟩ | ⟨rfl, h⟩)
    · exact ⟨.exec .reset, rfl, h⟩
    · exact ⟨.alarm, rfl, h⟩
    · exact ⟨.exec .safetyDoor, rfl, h⟩
    · exact ⟨.exec .motionCancel, rfl, h⟩
    · exact ⟨.exec .feedHold, rfl, h⟩
    · exact ⟨.exec .cycleStart, rfl, h⟩
    · exact ⟨.exec .cycleStop, rfl, h⟩
    · exact ⟨.exec .statusReport, rfl, h⟩
  · rintro ⟨c, rfl, h⟩
    cases c with
    | none => cases h
    | alarm => exact .inr (.inl ⟨rfl, h⟩)
    | exec c =>
      cases c <;>
        simpa [FlagUnit.PendingCode, DispatchCode.code, FlagUnit.awaits, FlagUnit.has, causeBit] using h

/-- Settles O33: the dispatcher's code is pending unless none is, and no pending code is below it (`prio_code_le`). -/
theorem dispatchPriority : Obligations.DispatchPriority := by
  intro f isPending
  have hpending (k : Nat) : isPending k ↔ ∃ c : DispatchCode, c.code.toNat = k ∧ f.awaits c = true :=
    pendingCode_iff
  simp only [hpending]
  constructor
  · rintro _ ⟨c, rfl, hc⟩
    exact prio_code_le hc
  · by_cases hprio : f.prio = .none
    · have hnone := prio_eq_none_iff_awaits.1 hprio
      exact .inr ⟨by rw [hprio]; rfl, fun k ⟨c, _, hc⟩ => by simp [hnone] at hc⟩
    · exact .inl ⟨f.prio, rfl, awaits_prio hprio⟩

/-- The EXEC bit of a code, if it has one (R161). -/
def DispatchCode.execMask : DispatchCode → BitVec 7
  | .exec c => causeMask c
  | _ => 0

/-- Taking a cause clears the bit of its code, which for the code 2 is ALARM_PENDING (R164). -/
theorem taken_eq (f : FlagUnit) (c : DispatchCode) :
    f.taken c = ⟨f.exec &&& ~~~c.execMask, f.alarm, if c.code = 2 then false else f.pending⟩ := by
  have hkeep : f.exec &&& ~~~0#7 = f.exec := by rw [BitVec.not_zero, BitVec.and_allOnes]
  cases c with
  | none => exact (congrArg (FlagUnit.mk · f.alarm f.pending) hkeep).symm
  | alarm => exact (congrArg (FlagUnit.mk · f.alarm false) hkeep).symm
  | exec c => cases c <;> rfl

theorem exec_dispatchTake {s : State} (hcur : s.cur = .main) :
    exec .dispatchTake s = .next ((s.setFlag (s.flag.taken s.flag.prio)).finish .ok s.flag.dispatchData) :=
  onPort_allowed (i := .dispatchTake) (by simp [allowed, hcur])

/-- Settles O34: the result is `dispatchData_fields`, and the bit that TAKE clears is `taken_eq`. -/
theorem dispatchTransitions : Obligations.DispatchTransitions := by
  refine ⟨decode_encode (i := .dispatchPeek) rfl, decode_encode (i := .dispatchTake) rfl,
    fun p => ⟨rfl, by simp [allowed]⟩, fun s => ⟨s.flag.dispatchData, ?_⟩⟩
  obtain ⟨hcode, hzero, halarm⟩ := dispatchData_fields s.flag
  refine ⟨hcode, hzero, halarm, onPort_allowed (i := .dispatchPeek) (s := s) rfl, fun hcur => ?_⟩
  rw [exec_dispatchTake hcur, taken_eq]
  cases s.flag.prio with
  | none => rfl
  | alarm => rfl
  | exec c => cases c <;> rfl

/-! ## Draining the flags (R165) -/

theorem getLsbD_causeMask (c d : ExecCause) : (causeMask c).getLsbD (causeBit d) = decide (d = c) := by
  cases c <;> cases d <;> rfl

/-- A cause that is taken is pending no longer, and every other one stays as it is (R164). -/
theorem awaits_taken (f : FlagUnit) (c d : DispatchCode) : (f.taken c).awaits d = (f.awaits d && decide (d ≠ c)) := by
  cases c with
  | none => cases d <;> simp [FlagUnit.taken, FlagUnit.awaits]
  | alarm => cases d <;> simp [FlagUnit.taken, FlagUnit.awaits, FlagUnit.has]
  | exec c =>
    cases d with
    | none => rfl
    | alarm => simp [FlagUnit.taken, FlagUnit.awaits, FlagUnit.clearExec]
    | exec d =>
      have hbit : causeBit d < 7 := by cases d <;> decide
      simp only [FlagUnit.taken, FlagUnit.awaits, FlagUnit.has, FlagUnit.clearExec, BitVec.getLsbD_and,
        BitVec.getLsbD_not, getLsbD_causeMask, hbit]
      simp

/-- The flags after a TAKE (R164). -/
def FlagUnit.takeFirst (f : FlagUnit) : FlagUnit := f.taken f.prio

/-- Every code that is pending is above `k`. -/
def FlagUnit.DrainedTo (k : Nat) (f : FlagUnit) : Prop := ∀ c, f.awaits c = true → k < c.code.toNat

theorem drainedTo_zero (f : FlagUnit) : f.DrainedTo 0 := by
  have hpositive : ∀ c ∈ dispatchOrder, 0 < c.code.toNat := by decide
  exact fun c hc => hpositive c (mem_dispatchOrder hc)

theorem FlagUnit.DrainedTo.takeFirst {f : FlagUnit} {k : Nat} (h : f.DrainedTo k) : f.takeFirst.DrainedTo (k + 1) := by
  intro c hc
  obtain ⟨hc, hne⟩ : f.awaits c = true ∧ c ≠ f.prio := by simpa [FlagUnit.takeFirst, awaits_taken] using hc
  have hprio : f.prio ≠ .none := fun hnone => by simp [prio_eq_none_iff_awaits.1 hnone] at hc
  exact Nat.lt_of_le_of_lt (h f.prio (awaits_prio hprio)) (prio_code_lt hc hne)

theorem takeFirst_alarm (f : FlagUnit) : f.takeFirst.alarm = f.alarm := by rw [FlagUnit.takeFirst, taken_eq]

/-- After `k` TAKEs every code that is still pending is above `k`, and ALARM is kept. -/
theorem drainedTo_iterate (f : FlagUnit) (k : Nat) :
    (FlagUnit.takeFirst^[k] f).DrainedTo k ∧ (FlagUnit.takeFirst^[k] f).alarm = f.alarm := by
  induction k with
  | zero => exact ⟨drainedTo_zero f, rfl⟩
  | succ k ih =>
    obtain ⟨hdrained, halarm⟩ := ih
    rw [Function.iterate_succ_apply']
    exact ⟨hdrained.takeFirst, (takeFirst_alarm _).trans halarm⟩

/-- Nothing is pending once every pending code would be above 8, since no code is (R161). -/
theorem prio_eq_none_of_drainedTo {f : FlagUnit} (h : f.DrainedTo 8) : f.prio = .none := by
  have hlast : ∀ c ∈ dispatchOrder, c.code.toNat ≤ 8 := by decide
  by_contra hprio
  have hawaits := awaits_prio hprio
  exact (h _ hawaits).not_ge (hlast _ (mem_dispatchOrder hawaits))

theorem transitions_dispatchTake {s : State} (hcur : s.cur = .main) (k : Nat) :
    ∃ t, transitions .dispatchTake k s = .next t ∧ t.flag = FlagUnit.takeFirst^[k] s.flag := by
  induction k generalizing s with
  | zero => exact ⟨s, rfl, rfl⟩
  | succ k ih =>
    obtain ⟨t, ht, hflag⟩ := ih (s := (s.setFlag s.flag.takeFirst).finish .ok s.flag.dispatchData) hcur
    exact ⟨t, by rw [transitions, exec_dispatchTake hcur]; exact ht, hflag⟩

/-- Settles O35: each TAKE raises the least code that can still be pending (`drainedTo_iterate`), and the greatest
code is 8. -/
theorem eightTakesDrainTheFlags : Obligations.EightTakesDrainTheFlags := by
  intro s hcur
  obtain ⟨t, ht, hflag⟩ := transitions_dispatchTake hcur 8
  obtain ⟨hdrained, halarm⟩ := drainedTo_iterate s.flag 8
  rw [← hflag] at hdrained halarm
  have hprio := prio_eq_none_of_drainedTo hdrained
  obtain ⟨hexec, hpending⟩ := (prio_eq_none_iff t.flag).1 hprio
  exact ⟨t, ht, hexec, hpending, halarm, hprio⟩

end Sys2Proof.Machine

namespace Sys2Proof.Machine

/-! # No operation but those of the alarm looks at it (41_event_flags.md R157) -/

/-- The outcome with other alarm flags in its next state. -/
def outWithAlarm (alarm : BitVec 6) (pending : Bool) : Out → Out
  | .next t => .next (t.withAlarm alarm pending)
  | .fault r => .fault r
  | .refused r => .refused r

section
variable {alarm : BitVec 6} {pending : Bool} {i : Instr} {s : State}

/-! ## Updates of the state -/

theorem ite_eq_apply {α β : Type} {c : Prop} [Decidable c] (f : α → β) {x y : α} {x' y' : β} (hx : x' = f x)
    (hy : y' = f y) : (if c then x' else y') = f (if c then x else y) := by
  rw [hx, hy, apply_ite f]

theorem setMem_withAlarm (m : Memory) (sp : Space) :
    (s.withAlarm alarm pending).setMem m sp = (s.setMem m sp).withAlarm alarm pending := by cases sp <;> rfl

theorem setQueue_withAlarm (x : Queue) (q : QueueId) :
    (s.withAlarm alarm pending).setQueue x q = (s.setQueue x q).withAlarm alarm pending := by cases q <;> rfl

theorem afterStore_withAlarm (q : QueueId) :
    (s.withAlarm alarm pending).afterStore q = (s.afterStore q).withAlarm alarm pending := by
  cases q with
  | rx => exact ite_eq_apply (State.withAlarm alarm pending) rfl rfl
  | tx => rfl

theorem afterDrop_withAlarm (q : QueueId) :
    (s.withAlarm alarm pending).afterDrop q = (s.afterDrop q).withAlarm alarm pending := by cases q <;> rfl

theorem afterPop_withAlarm (q : QueueId) :
    (s.withAlarm alarm pending).afterPop q = (s.afterPop q).withAlarm alarm pending := by
  cases q with
  | rx => exact ite_eq_apply (State.withAlarm alarm pending) rfl rfl
  | tx => rfl

/-! ## The shared operations -/

theorem finish_withAlarm {u u' : State} {st : Status} {d : Half} (hu : u' = u.withAlarm alarm pending) :
    Host.Outcome.next (φ := Fault) (ρ := Refusal) (u'.finish st d) =
      outWithAlarm alarm pending (.next (u.finish st d)) := by
  rw [hu]
  rfl

theorem onPort_withAlarm {o o' : Out} (h : o' = outWithAlarm alarm pending o) :
    onPort i (s.withAlarm alarm pending) o' = outWithAlarm alarm pending (onPort i s o) :=
  ite_eq_apply _ h rfl

theorem whenIdle_withAlarm {o o' : Out} (h : o' = outWithAlarm alarm pending o) :
    whenIdle i (s.withAlarm alarm pending) o' = outWithAlarm alarm pending (whenIdle i s o) :=
  ite_eq_apply _ rfl h

theorem readByte_withAlarm {sp : Space} {x : Nat} {k k' : Byte → State → Out}
    (hk : ∀ d t, k' d (t.withAlarm alarm pending) = outWithAlarm alarm pending (k d t)) :
    readByte sp x (s.withAlarm alarm pending) k' = outWithAlarm alarm pending (readByte sp x s k) := by
  have hpeek : (s.withAlarm alarm pending).peek sp x = s.peek sp x := State.peek_congr (by cases sp <;> rfl) x
  refine ite_eq_apply _ ?_ rfl
  rw [hpeek]
  cases s.peek sp x with
  | some d => exact hk d s
  | none => exact hk _ (s.setDraws (s.draws + 1))

theorem writeByte_withAlarm {sp : Space} {x : Nat} {d : Byte} {k k' : State → Out}
    (hk : ∀ t, k' (t.withAlarm alarm pending) = outWithAlarm alarm pending (k t)) :
    writeByte sp x d (s.withAlarm alarm pending) k' = outWithAlarm alarm pending (writeByte sp x d s k) := by
  have hmem : (s.withAlarm alarm pending).mem sp = s.mem sp := by cases sp <;> rfl
  refine ite_eq_apply _ ?_ rfl
  rw [hmem, setMem_withAlarm]
  exact hk _

theorem zeroBuf_withAlarm {n : Nat} {k k' : State → Out}
    (hk : ∀ t, k' (t.withAlarm alarm pending) = outWithAlarm alarm pending (k t)) :
    zeroBuf n (s.withAlarm alarm pending) k' = outWithAlarm alarm pending (zeroBuf n s k) := by
  induction n generalizing s with
  | zero => exact hk s
  | succ n ih => exact writeByte_withAlarm fun t => ih

theorem putByte_withAlarm {x : Nat} {v : Byte} {k k' : Mode → State → Out}
    (hk : ∀ m t, k' m (t.withAlarm alarm pending) = outWithAlarm alarm pending (k m t)) :
    putByte x v (s.withAlarm alarm pending) k' = outWithAlarm alarm pending (putByte x v s k) :=
  readByte_withAlarm fun old t => by
    cases classify old v with
    | none => exact hk _ t
    | _ => exact hk _ (t.startCycle x _ old v)

theorem enqueue_withAlarm {q : QueueId} {d : Byte} {k k' : State → Out}
    (hk : ∀ t, k' (t.withAlarm alarm pending) = outWithAlarm alarm pending (k t)) :
    enqueue q d (s.withAlarm alarm pending) k' = outWithAlarm alarm pending (enqueue q d s k) := by
  cases q <;> exact writeByte_withAlarm fun t => (congrArg k' (setQueue_withAlarm _ _)).trans (hk _)

theorem dequeue_withAlarm {q : QueueId} {k k' : Byte → State → Out}
    (hk : ∀ d t, k' d (t.withAlarm alarm pending) = outWithAlarm alarm pending (k d t)) :
    dequeue q (s.withAlarm alarm pending) k' = outWithAlarm alarm pending (dequeue q s k) := by
  cases q <;> exact readByte_withAlarm fun d t => (congrArg (k' d) (setQueue_withAlarm _ _)).trans (hk d _)

/-! ## Bus phases -/

theorem onAnswer_withAlarm {α : Type} {sel : BusAnswer → Option α} {k k' : α → State → Out}
    (hk : ∀ r t, k' r (t.withAlarm alarm pending) = outWithAlarm alarm pending (k r t)) :
    onAnswer sel i (s.withAlarm alarm pending) k' = outWithAlarm alarm pending (onAnswer sel i s k) := by
  have hanswer : (s.withAlarm alarm pending).answer sel = s.answer sel := rfl
  cases hr : s.answer sel with
  | none =>
    rw [onAnswer_none hr, onAnswer_none (hanswer.trans hr)]
    rfl
  | some r =>
    rw [onAnswer_some hr, onAnswer_some (hanswer.trans hr)]
    exact hk r (s.setBusIn s.busIn.tail)

section
variable {a : BitVec 7} {rw : Dir} {d : Byte} {f f' g g' : State → Out}
  (hf : ∀ t, f' (t.withAlarm alarm pending) = outWithAlarm alarm pending (f t))
  (hg : ∀ t, g' (t.withAlarm alarm pending) = outWithAlarm alarm pending (g t))
include hf hg

theorem busStart_withAlarm :
    busStart i a rw (s.withAlarm alarm pending) f' g' = outWithAlarm alarm pending (busStart i a rw s f g) :=
  onAnswer_withAlarm fun r t => ite_eq_apply _ (hf (t.startPhase a rw r)) (hg (t.startPhase a rw r))

theorem busAddr_withAlarm :
    busAddr i a rw (s.withAlarm alarm pending) f' g' = outWithAlarm alarm pending (busAddr i a rw s f g) :=
  onAnswer_withAlarm fun r t => ite_eq_apply _ (hf (t.addrPhase a rw r)) (hg (t.addrPhase a rw r))

theorem busWrite_withAlarm :
    busWrite i d (s.withAlarm alarm pending) f' g' = outWithAlarm alarm pending (busWrite i d s f g) :=
  onAnswer_withAlarm fun r t => ite_eq_apply _ (hf (t.writePhase d r)) (hg (t.writePhase d r))

end

theorem busRead_withAlarm {m : ReadReply} {k k' : Byte → State → Out}
    (hk : ∀ b t, k' b (t.withAlarm alarm pending) = outWithAlarm alarm pending (k b t)) :
    busRead i m (s.withAlarm alarm pending) k' = outWithAlarm alarm pending (busRead i m s k) :=
  onAnswer_withAlarm fun b t => hk b (t.readPhase m b)

theorem busStop_withAlarm {k k' : State → Out}
    (hk : ∀ t, k' (t.withAlarm alarm pending) = outWithAlarm alarm pending (k t)) :
    busStop i (s.withAlarm alarm pending) k' = outWithAlarm alarm pending (busStop i s k) :=
  ite_eq_apply _ (onAnswer_withAlarm fun _ t => hk t.stopPhase) (hk s)

theorem startWhole_withAlarm {a : BitVec 7} {rw : Dir} :
    startWhole i a rw (s.withAlarm alarm pending) = outWithAlarm alarm pending (startWhole i a rw s) :=
  onAnswer_withAlarm fun r t => ite_eq_apply _ (by
    have hanswer : (t.withAlarm alarm pending).answer BusAnswer.byteAnswer? = t.answer BusAnswer.byteAnswer? := rfl
    rw [hanswer]
    cases t.answer BusAnswer.byteAnswer? <;> rfl) rfl

theorem startOp_withAlarm {a : BitVec 7} {rw : Dir} :
    startOp i a rw (s.withAlarm alarm pending) = outWithAlarm alarm pending (startOp i a rw s) :=
  ite_eq_apply _ (busAddr_withAlarm (fun _ => rfl) fun _ => rfl)
    (ite_eq_apply _ startWhole_withAlarm (busStart_withAlarm (fun _ => rfl) fun _ => rfl))

/-! ## The operations of several cases -/

theorem execRxIngress_withAlarm (d : Byte) :
    execRxIngress d (s.withAlarm alarm pending) = outWithAlarm alarm pending (execRxIngress d s) := by
  have hcfg : (s.withAlarm alarm pending).cfg = s.cfg := rfl
  refine onPort_withAlarm ?_
  rw [hcfg]
  cases rtCause s.cfg d with
  | some c => rfl
  | none => exact ite_eq_apply _ (enqueue_withAlarm fun t => finish_withAlarm (afterStore_withAlarm .rx)) rfl

theorem execTxEgress_withAlarm :
    execTxEgress (s.withAlarm alarm pending) = outWithAlarm alarm pending (execTxEgress s) :=
  onPort_withAlarm <| ite_eq_apply _ rfl <| ite_eq_apply _ rfl <|
    ite_eq_apply _ (dequeue_withAlarm fun _ _ => rfl) rfl

theorem execI2cWriteReg_withAlarm (a : BitVec 7) (reg : Byte) (n : Nat) :
    execI2cWriteReg a reg n (s.withAlarm alarm pending) = outWithAlarm alarm pending (execI2cWriteReg a reg n s) := by
  have hstage : (s.withAlarm alarm pending).stage = s.stage := rfl
  refine onPort_withAlarm ?_
  rw [hstage]
  cases s.stage with
  | addr => exact busAddr_withAlarm (fun _ => rfl) fun _ => rfl
  | reg => exact busWrite_withAlarm (fun _ => rfl) fun _ => rfl
  | data j =>
    exact ite_eq_apply _ (onAnswer_withAlarm fun r t => readByte_withAlarm fun d u => rfl)
      (busStop_withAlarm fun _ => rfl)
  | abort => exact busStop_withAlarm fun _ => rfl
  | _ => exact ite_eq_apply _ rfl (busStart_withAlarm (fun _ => rfl) fun _ => rfl)

theorem execI2cReadReg_withAlarm (a : BitVec 7) (reg : Byte) (n : Nat) :
    execI2cReadReg a reg n (s.withAlarm alarm pending) = outWithAlarm alarm pending (execI2cReadReg a reg n s) := by
  have hstage : (s.withAlarm alarm pending).stage = s.stage := rfl
  refine onPort_withAlarm (ite_eq_apply _ rfl ?_)
  rw [hstage]
  cases s.stage with
  | addr => exact busAddr_withAlarm (fun _ => rfl) fun _ => rfl
  | reg => exact busWrite_withAlarm (fun _ => rfl) fun _ => rfl
  | restart => exact busStart_withAlarm (fun _ => rfl) fun _ => rfl
  | raddr => exact busAddr_withAlarm (fun _ => rfl) fun _ => rfl
  | data j =>
    exact ite_eq_apply _ (busRead_withAlarm fun _ _ => writeByte_withAlarm fun _ => rfl)
      (busStop_withAlarm fun _ => readByte_withAlarm fun _ _ => rfl)
  | abort => exact busStop_withAlarm fun _ => zeroBuf_withAlarm fun _ => rfl
  | _ => exact ite_eq_apply _ rfl (busStart_withAlarm (fun _ => rfl) fun _ => rfl)

theorem execEeWriteBlock_withAlarm (x len : Nat) :
    execEeWriteBlock x len (s.withAlarm alarm pending) = outWithAlarm alarm pending (execEeWriteBlock x len s) :=
  onPort_withAlarm <| ite_eq_apply _ rfl <| whenIdle_withAlarm <| ite_eq_apply _
    (readByte_withAlarm fun _ _ => putByte_withAlarm fun _ _ => rfl) (putByte_withAlarm fun _ _ => rfl)

theorem execEeReadBlock_withAlarm (x len : Nat) :
    execEeReadBlock x len (s.withAlarm alarm pending) = outWithAlarm alarm pending (execEeReadBlock x len s) :=
  onPort_withAlarm <| ite_eq_apply _ rfl <| whenIdle_withAlarm <| ite_eq_apply _
    (readByte_withAlarm fun _ _ => writeByte_withAlarm fun _ => rfl) (readByte_withAlarm fun _ _ => rfl)

/-! ## All operations -/

/-- The operations that read or write the alarm (R157). -/
def usesAlarm : Instr → Bool
  | .alarmRaise _ | .alarmClear | .alarmRead | .dispatchPeek | .dispatchTake | .csrRead _ | .ctrlReset => true
  | _ => false

/-- An operation that does not use the alarm runs the same under any alarm. -/
theorem exec_withAlarm (hi : usesAlarm i = false) :
    exec i (s.withAlarm alarm pending) = outWithAlarm alarm pending (exec i s) := by
  cases i with
  | nop => exact onPort_withAlarm (i := .nop) (s := s) rfl
  | fifoPushWait q d =>
    exact onPort_withAlarm (ite_eq_apply _ (enqueue_withAlarm fun _ => rfl) (ite_eq_apply _ rfl rfl))
  | fifoPushDrop q d =>
    exact onPort_withAlarm <| ite_eq_apply _
      (enqueue_withAlarm fun _ => finish_withAlarm (afterStore_withAlarm q)) (finish_withAlarm (afterDrop_withAlarm q))
  | fifoPop q =>
    exact onPort_withAlarm <| ite_eq_apply _ (finish_withAlarm (afterPop_withAlarm q))
      (dequeue_withAlarm fun _ _ => finish_withAlarm (afterPop_withAlarm q))
  | fifoCount q => exact onPort_withAlarm (i := .fifoCount q) (s := s) rfl
  | rxIngress d => exact execRxIngress_withAlarm d
  | txEgress => exact execTxEgress_withAlarm
  | execRaise m => exact onPort_withAlarm (i := .execRaise m) (s := s) rfl
  | execClear m => exact onPort_withAlarm (i := .execClear m) (s := s) rfl
  | execRead => exact onPort_withAlarm (i := .execRead) (s := s) rfl
  | i2cStart a rw => exact onPort_withAlarm startOp_withAlarm
  | i2cRestart a rw => exact onPort_withAlarm startOp_withAlarm
  | i2cWrite d =>
    exact onPort_withAlarm (ite_eq_apply _ rfl (busWrite_withAlarm (fun _ => rfl) fun _ => rfl))
  | i2cReadAck => exact onPort_withAlarm (ite_eq_apply _ rfl (busRead_withAlarm fun _ _ => rfl))
  | i2cReadNack => exact onPort_withAlarm (ite_eq_apply _ rfl (busRead_withAlarm fun _ _ => rfl))
  | i2cStop => exact onPort_withAlarm (busStop_withAlarm fun _ => rfl)
  | i2cWriteReg a reg n => exact execI2cWriteReg_withAlarm a reg n
  | i2cReadReg a reg n => exact execI2cReadReg_withAlarm a reg n
  | eeGet x => exact onPort_withAlarm (ite_eq_apply _ rfl (whenIdle_withAlarm (readByte_withAlarm fun _ _ => rfl)))
  | eePut x v => exact onPort_withAlarm (ite_eq_apply _ rfl (whenIdle_withAlarm (putByte_withAlarm fun _ _ => rfl)))
  | eeWriteBlock x len => exact execEeWriteBlock_withAlarm x len
  | eeReadBlock x len => exact execEeReadBlock_withAlarm x len
  | bufWrite j d => exact onPort_withAlarm (writeByte_withAlarm fun _ => rfl)
  | bufRead j => exact onPort_withAlarm (readByte_withAlarm fun _ _ => rfl)
  | _ => cases hi

end

/-- Settles O19: no shared operation looks at the alarm, and so none of the operations built from them
(`exec_withAlarm`). -/
theorem alarmChangesNoOperation : Obligations.AlarmChangesNoOperation := by
  intro i s alarm pending hraise hclear hread hpeek htake hcsr hreset
  have hi : usesAlarm i = false := by
    cases i with
    | alarmRaise m => exact absurd rfl (hraise m)
    | alarmClear => exact absurd rfl hclear
    | alarmRead => exact absurd rfl hread
    | dispatchPeek => exact absurd rfl hpeek
    | dispatchTake => exact absurd rfl htake
    | csrRead j => exact absurd rfl (hcsr j)
    | ctrlReset => exact absurd rfl hreset
    | _ => rfl
  rw [exec_withAlarm hi]
  cases exec i s <;> rfl

end Sys2Proof.Machine

namespace Sys2Proof.Machine

/-! # One stop for each composite I2C transfer (42_i2c.md R182) -/

/-! ## What BUS_LOG gains -/

/-- BUS_LOG has grown by events of which none is P. -/
def LogGrows (s t : State) : Prop := ∃ evs, t.logs.busLog = s.logs.busLog ++ evs ∧ BusEvent.p ∉ evs

/-- BUS_LOG has grown by events of which the last is P and no other is. -/
def LogStops (s t : State) : Prop := ∃ evs, t.logs.busLog = s.logs.busLog ++ evs ++ [.p] ∧ BusEvent.p ∉ evs

section
variable {s t u : State}

theorem logGrows_of_eq (h : t.logs.busLog = s.logs.busLog) : LogGrows s t := ⟨[], by simp [h], by simp⟩

theorem LogGrows.trans (h : LogGrows s t) (h' : LogGrows t u) : LogGrows s u := by
  obtain ⟨evs, hlog, hp⟩ := h
  obtain ⟨evs', hlog', hp'⟩ := h'
  exact ⟨evs ++ evs', by rw [hlog', hlog, List.append_assoc], by simp [hp, hp']⟩

theorem LogGrows.stop (h : LogGrows s t) (hu : u.logs.busLog = t.logs.busLog ++ [.p]) : LogStops s u := by
  obtain ⟨evs, hlog, hp⟩ := h
  exact ⟨evs, by rw [hu, hlog], hp⟩

end

/-- No register of a port is written and nothing is logged. -/
def Unlogged (s u : State) : Prop := u.control = s.control ∧ u.logs = s.logs

/-- A bus phase that is no stop: one event is logged, it is not P, and no register of a port is written. -/
def Sends (s u : State) : Prop :=
  u.control = s.control ∧ ∃ e, e ≠ BusEvent.p ∧ u.logs.busLog = s.logs.busLog ++ [e]

section
variable {s t : State} {i : Instr} {st : Stage}

theorem answer_unlogged (l : List BusAnswer) : Unlogged s (s.setBusIn l) := ⟨rfl, rfl⟩

/-- A read logs nothing, whether or not its byte is drawn (R53). -/
theorem readByte_unlogged {sp : Space} {x : Nat} {k : Byte → State → Out} (h : readByte sp x s k = .next t) :
    ∃ d u, Unlogged s u ∧ k d u = .next t := by
  obtain ⟨-, ⟨d, -, h⟩ | ⟨-, -, h⟩⟩ := readByte_next h
  · exact ⟨d, s, ⟨rfl, rfl⟩, h⟩
  · exact ⟨_, s.setDraws (s.draws + 1), ⟨rfl, rfl⟩, h⟩

theorem writeByte_unlogged {sp : Space} {x : Nat} {d : Byte} {k : State → Out} (h : writeByte sp x d s k = .next t) :
    ∃ u, Unlogged s u ∧ k u = .next t := by
  obtain ⟨-, h⟩ := writeByte_next h
  exact ⟨_, ⟨by simp, by simp⟩, h⟩

theorem Unlogged.trans {u v : State} (h : Unlogged s u) (h' : Unlogged u v) : Unlogged s v := by
  obtain ⟨hcontrol, hlogs⟩ := h
  obtain ⟨hcontrol', hlogs'⟩ := h'
  exact ⟨hcontrol'.trans hcontrol, hlogs'.trans hlogs⟩

theorem Sends.unlogged {u v : State} (h : Sends s u) (h' : Unlogged u v) : Sends s v := by
  obtain ⟨hcontrol, e, he, hlog⟩ := h
  obtain ⟨hcontrol', hlogs'⟩ := h'
  exact ⟨hcontrol'.trans hcontrol, e, he, by rw [hlogs', hlog]⟩

theorem phase_sends {e : BusEvent} (he : e ≠ .p) (v : I2cUnit) {u : State} (hu : Unlogged s u) :
    Sends s ((u.emitBus e).setI2c v) := by
  obtain ⟨hcontrol, hlogs⟩ := hu
  exact ⟨hcontrol, e, he, by simp [hlogs]⟩

theorem startPhase_sends (a : BitVec 7) (rw : Dir) (r : StartAnswer) {u : State} (hu : Unlogged s u) :
    Sends s (u.startPhase a rw r) := by
  refine phase_sends ?_ _ hu
  cases u.i2c.phase.isOpen <;> cases r <;> decide

theorem addrPhase_sends (a : BitVec 7) (rw : Dir) (r : ByteAnswer) {u : State} (hu : Unlogged s u) :
    Sends s (u.addrPhase a rw r) := phase_sends (by simp) _ hu

theorem writePhase_sends (d : Byte) (r : ByteAnswer) {u : State} (hu : Unlogged s u) : Sends s (u.writePhase d r) :=
  phase_sends (by simp) _ hu

theorem readPhase_sends (m : ReadReply) (b : Byte) {u : State} (hu : Unlogged s u) : Sends s (u.readPhase m b) :=
  phase_sends (by simp) _ hu

/-! ## One transition of a composite -/

variable {u : State}

/-- What one transition of a composite I2C operation does to its port and to BUS_LOG: it goes on and logs no P, it ends
with the status of an operation that does not reach the bus, or it ends with P. -/
inductive Composes (i : Instr) (s t : State) : Prop
  | goesOn (st : Stage) (hgo : GoesOn i s t st) (hlog : LogGrows s t)
  | offBus (st : Status) (d : Half) (hend : Ended s t st d) (hst : st = .i2cSeq ∨ st = .errArg)
  | stopped (st : Status) (d : Half) (hend : Ended s t st d) (hlog : t.logs.busLog = s.logs.busLog ++ [.p])

theorem ended_finish {st : Status} {d : Half} (hu : u.control = s.control) : Ended s (u.finish st d) st d := by
  obtain ⟨hres, hpend, hip, hcur, -⟩ := State.control_eq_iff.1 hu
  exact ⟨by simp [hres, hcur], by simp [hpend, hcur], by simp [hip, hcur]⟩

theorem goesOn_await (hu : u.control = s.control) : GoesOn i s (u.await i st) st := by
  obtain ⟨hres, hpend, hip, hcur, -⟩ := State.control_eq_iff.1 hu
  exact ⟨hres, by simp [hpend, hcur], hip⟩

theorem hold_composes : Composes i s (s.hold i) := .goesOn _ (goesOn_await rfl) (logGrows_of_eq rfl)

theorem Sends.composes (hu : Sends s u) : Composes i s (u.await i st) := by
  obtain ⟨hcontrol, e, he, hlog⟩ := hu
  exact .goesOn st (goesOn_await hcontrol) ⟨[e], hlog, by simpa using he.symm⟩

/-- A bus phase from which a composite goes on (R180, R181). -/
theorem phase_composes {α : Type} [DecidableEq α] {sel : BusAnswer → Option α} {good : α}
    {phase : α → State → State} (hphase : ∀ r {u}, Unlogged s u → Sends s (phase r u))
    (h : onAnswer sel i s (fun r t =>
      if r = good then .next ((phase r t).await i st) else .next ((phase r t).await i .abort)) = .next t) :
    Composes i s t := by
  obtain ⟨r, -, h⟩ | ⟨-, rfl⟩ := onAnswer_next h
  · split at h <;> cases h <;> exact (hphase r (answer_unlogged _)).composes
  · exact hold_composes

/-- The first transition of an I2C composite (R172, R180, R181). -/
theorem composeFirst_composes {a : BitVec 7} {rw : Dir}
    (h : (if !s.i2c.mayCompose then .next (s.finish .i2cSeq 0)
      else busStart i a rw s (fun t => .next (t.await i st)) (fun t => .next (t.await i .abort))) = .next t) :
    Composes i s t := by
  split at h
  · cases h
    exact .offBus _ _ (ended_finish rfl) (.inl rfl)
  · exact phase_composes (startPhase_sends a rw) h

/-- The stop of a composite, with its transaction open as `stageFits` says: P, and then the end (R188). -/
theorem busStop_composes {k : State → Out} (hopen : s.i2c.phase.isOpen = true) (h : busStop i s k = .next t)
    (hk : ∀ u, k u = .next t → ∃ (v : State) (st : Status) (d : Half), Unlogged u v ∧ t = v.finish st d) :
    Composes i s t := by
  obtain ⟨-, -, h⟩ | ⟨-, -, rfl⟩ | ⟨hclosed, -⟩ := busStop_next h
  · obtain ⟨v, st, d, ⟨hcontrol, hlogs⟩, rfl⟩ := hk _ h
    exact .stopped st d (ended_finish hcontrol) (congrArg Logs.busLog hlogs)
  · exact hold_composes
  · cases hopen.symm.trans hclosed

theorem execI2cWriteReg_composes {a : BitVec 7} {reg : Byte} {n : Nat} (hcur : s.cur = .main)
    (hst : Stands (.i2cWriteReg a reg n) s) (h : execI2cWriteReg a reg n s = .next t) :
    Composes (.i2cWriteReg a reg n) s t := by
  rw [execI2cWriteReg, onPort_allowed (by simp [allowed, hcur])] at h
  cases hs : s.stage with rw [hs] at h
  | addr => exact phase_composes (addrPhase_sends a .write) h
  | reg => exact phase_composes (writePhase_sends reg) h
  | data j =>
    dsimp only at h
    split at h
    · obtain ⟨r, -, h⟩ | ⟨-, rfl⟩ := onAnswer_next h
      · obtain ⟨d, u, hu, h⟩ := readByte_unlogged h
        cases h
        exact (writePhase_sends d r ((answer_unlogged _).trans hu)).composes
      · exact hold_composes
    · obtain ⟨-, hi2c⟩ : j ≤ n ∧ s.i2c = _ := hst.fits hs nofun
      refine busStop_composes (by rw [hi2c]; rfl) h fun u h => ?_
      cases h
      exact ⟨u, _, _, ⟨rfl, rfl⟩, rfl⟩
  | abort =>
    obtain ⟨hopen, -⟩ : Failed s := hst.fits hs nofun
    refine busStop_composes hopen h fun u h => ?_
    cases h
    exact ⟨u, _, _, ⟨rfl, rfl⟩, rfl⟩
  | _ => exact composeFirst_composes (st := .addr) h

theorem execI2cReadReg_composes {a : BitVec 7} {reg : Byte} {n : Nat} (hcur : s.cur = .main)
    (hst : Stands (.i2cReadReg a reg n) s) (h : execI2cReadReg a reg n s = .next t) :
    Composes (.i2cReadReg a reg n) s t := by
  rw [execI2cReadReg, onPort_allowed (by simp [allowed, hcur])] at h
  split at h
  · cases h
    exact .offBus _ _ (ended_finish rfl) (.inr rfl)
  cases hs : s.stage with rw [hs] at h
  | addr => exact phase_composes (addrPhase_sends a .write) h
  | reg => exact phase_composes (writePhase_sends reg) h
  | restart => exact phase_composes (startPhase_sends a .read) h
  | raddr => exact phase_composes (addrPhase_sends a .read) h
  | data j =>
    dsimp only at h
    split at h
    · obtain ⟨b, -, h⟩ | ⟨-, rfl⟩ := busRead_next h
      · obtain ⟨u, hu, h⟩ := writeByte_unlogged h
        cases h
        exact ((readPhase_sends _ b (answer_unlogged _)).unlogged hu).composes
      · exact hold_composes
    · obtain ⟨-, -, hfit⟩ := hst.fits hs nofun
      refine busStop_composes (by rw [hfit]; split <;> rfl) h fun u h => ?_
      obtain ⟨d, v, hv, h⟩ := readByte_unlogged h
      cases h
      exact ⟨v, _, _, hv, rfl⟩
  | abort =>
    obtain ⟨-, hopen, -⟩ := hst.fits hs nofun
    refine busStop_composes hopen h fun u h => ?_
    obtain ⟨-, h⟩ := zeroBuf_next h
    cases h
    exact ⟨u.setBuf (zeroed n u.buf), _, _, ⟨rfl, rfl⟩, rfl⟩
  | _ => exact composeFirst_composes (st := .addr) h

/-- The two composite I2C operations (R180, R181). -/
def IsRegOp (i : Instr) : Prop := ∃ a r n, i = .i2cWriteReg a r n ∨ i = .i2cReadReg a r n

theorem exec_composes (hi : IsRegOp i) (hcur : s.cur = .main) (hst : Stands i s) (h : exec i s = .next t) :
    Composes i s t := by
  obtain ⟨a, r, n, rfl | rfl⟩ := hi
  · exact execI2cWriteReg_composes hcur hst h
  · exact execI2cReadReg_composes hcur hst h

/-! ## Steps that leave MAIN alone -/

/-- The registers and the program of MAIN are as before, and BUS_LOG too. -/
structure MainKept (s t : State) : Prop where
  res : t.res.main = s.res.main
  pend : t.pend.main = s.pend.main
  ip : t.ip.main = s.ip.main
  prog : t.prog.main = s.prog.main
  busLog : t.logs.busLog = s.logs.busLog

/-- Only MAIN may issue I2C operations (R33). -/
theorem eq_main_of_i2c {p : Port} (hi : allowed i p = true) (hu : unitOf i = .i2c) : p = .main := by
  cases i with
  | i2cStart | i2cRestart | i2cWrite | i2cReadAck | i2cReadNack | i2cStop | i2cWriteReg | i2cReadReg =>
    simpa [allowed] using hi
  | _ => cases hu

theorem exec_mainKept (hcur : s.cur ≠ .main) (h : exec i s = .next t) : MainKept s t := by
  obtain ⟨hres, hpend, hip⟩ := exec_otherPortsKept h .main hcur.symm
  have hframe := (exec_does h).unitFrame
  obtain ⟨-, hprog, -⟩ := hframe.around
  refine ⟨hres, hpend, hip, congrArg PerPort.main hprog, ?_⟩
  cases hi : allowed i s.cur with
  | true =>
    obtain ⟨-, hlog, -⟩ := hframe.i2c fun hu => hcur (eq_main_of_i2c hi hu)
    exact hlog
  | false =>
    rw [exec_of_refused hi] at h
    cases h; rfl

theorem eeDone_mainKept (h : eeDone s = .next t) : MainKept s t := by
  obtain rfl | ⟨v, -, rfl⟩ := eeDone_next h
  · exact ⟨rfl, rfl, rfl, rfl, rfl⟩
  · exact ⟨rfl, rfl, rfl, rfl, rfl⟩

theorem finish_mainKept {st : Status} {d : Half} (hcur : s.cur ≠ .main) : MainKept s (s.finish st d) := by
  obtain ⟨hres, hpend, hip⟩ := Ended.otherPortsKept (ended_finish (st := st) (d := d) rfl) .main hcur.symm
  exact ⟨hres, hpend, hip, rfl, rfl⟩

theorem MainKept.trans (h : MainKept s t) (h' : MainKept t u) : MainKept s u :=
  ⟨h'.res.trans h.res, h'.pend.trans h.pend, h'.ip.trans h.ip, h'.prog.trans h.prog, h'.busLog.trans h.busLog⟩

/-- Issuing changes nothing but the program of the port (R31). -/
theorem issue_state (s : State) :
    ∃ progs, s.issue.state = s.setProg progs ∧ ∀ q, q ≠ s.cur → progs.get q = s.prog.get q := by
  rcases s.issue_cases with ⟨r, -, h⟩ | ⟨-, -, h⟩ | ⟨w, ws, -, -, h⟩
  · exact ⟨s.prog, by rw [h, decoded_state]; rfl, fun _ _ => rfl⟩
  · exact ⟨s.prog, by rw [h]; rfl, fun _ _ => rfl⟩
  · exact ⟨_, by rw [h, decoded_state], fun q hq => PerPort.get_set_other _ _ _ _ hq⟩

theorem issue_mainKept (hcur : s.cur ≠ .main) : MainKept s s.issue.state ∧ s.issue.state.cur = s.cur := by
  obtain ⟨progs, hstate, hprogs⟩ := issue_state s
  rw [hstate]
  exact ⟨⟨rfl, rfl, rfl, hprogs .main hcur.symm, rfl⟩, rfl⟩

/-- A port with nothing to issue leaves the state as it is. -/
theorem issue_idle_eq (h : s.issue = .idle u) : u = s := by
  rcases s.issue_forms with hs | ⟨progs, hs | ⟨w, i, -, hs⟩⟩ <;> cases h.symm.trans hs
  rfl

/-! ## Steps of MAIN -/

/-- A transition of MAIN ends its operation, or leaves it in progress. -/
theorem exec_ends_or_pends (hcur : s.cur = .main) (h : exec i s = .next t) :
    t.ip.main = s.ip.main + 1 ∨ (t.ip.main = s.ip.main ∧ t.pend.main ≠ none) := by
  have pends {st : Stage} (hgo : GoesOn i s t st) : t.ip.main = s.ip.main ∧ t.pend.main ≠ none := by
    obtain ⟨-, hpend, hip⟩ := hgo
    rw [hpend, hip, hcur]
    exact ⟨rfl, nofun⟩
  cases hw : s.holds i with
  | true =>
    rw [exec_of_holds hw] at h
    cases h
    exact .inr (pends (goesOn_await rfl))
  | false =>
    obtain ⟨st, d, hend⟩ | ⟨-, st, -, hst⟩ := moved_of_not_holds hw h
    · have hip := hend.ip_succ
      rw [hcur] at hip
      exact .inl hip
    · exact .inr (pends hst)

/-- Everything a step can do to MAIN: leave it alone, end a word of it that is ILLEGAL, or take a transition of one of
its operations. -/
theorem step_main_cases (h : step s = .next t) :
    MainKept s t ∨ ∃ u : State, (∃ rest, u = (s.setSched rest).setCur .main) ∧
      ((∃ v, u.issue = .illegal v ∧ t = v.finish .errIllegal 0) ∨
        ∃ i v, u.issue = .run i v ∧ exec i v = .next t) := by
  rcases step_cases h with ⟨-, h⟩ | ⟨rest, -, h⟩ | ⟨p, rest, -, h⟩
  · exact .inl (eeDone_mainKept h)
  · exact .inl { eeDone_mainKept h with }
  have hport : MainKept s ((s.setSched rest).setCur p) := ⟨rfl, rfl, rfl, rfl, rfl⟩
  rcases h with hidle | h
  · exact .inl (issue_idle_eq hidle ▸ hport)
  by_cases hp : p = .main
  · exact .inr ⟨_, ⟨rest, hp ▸ rfl⟩, h⟩
  · obtain ⟨hissue, hcur⟩ := issue_mainKept (s := (s.setSched rest).setCur p) hp
    refine .inl (hport.trans (hissue.trans ?_))
    rcases h with ⟨v, hv, rfl⟩ | ⟨i, v, hv, h⟩ <;> rw [hv] at hcur ⊢
    · exact finish_mainKept (hcur.trans_ne hp)
    · exact exec_mainKept (hcur.trans_ne hp) h

/-- A step leaves MAIN alone, ends one of its words, or leaves one in progress. -/
theorem step_main_ends_or_pends (h : step s = .next t) :
    MainKept s t ∨ t.ip.main = s.ip.main + 1 ∨ (t.ip.main = s.ip.main ∧ t.pend.main ≠ none) := by
  obtain hkept | ⟨u, ⟨rest, rfl⟩, h⟩ := step_main_cases h
  · exact .inl hkept
  obtain ⟨progs, hstate, -⟩ := issue_state ((s.setSched rest).setCur .main)
  rcases h with ⟨v, hv, rfl⟩ | ⟨i, v, hv, h⟩ <;> rw [hv] at hstate <;> cases hstate
  · exact .inr (.inl rfl)
  · have hmove := exec_ends_or_pends rfl h
    exact .inr hmove

/-! ## From the word's issue to its result -/

/-- The word of `i` that MAIN is about to issue in `s` has not finished in `t`, and BUS_LOG has gained no P. -/
structure Underway (i : Instr) (s t : State) : Prop where
  ip : t.ip.main = s.ip.main
  word : (t.pend.main = none ∧ ∃ ws, t.prog.main = encode i :: ws) ∨ ∃ st, t.pend.main = some ⟨encode i, st⟩
  log : LogGrows s t

/-- The word that MAIN is about to issue in `s` has finished in `t`; if it is the last to have done so, and has reached
the bus, it has logged one stop. -/
structure Settled (s t : State) : Prop where
  ip : s.ip.main < t.ip.main
  log : t.ip.main = s.ip.main + 1 → t.pend.main = none → t.res.main.status ≠ Status.i2cSeq.code →
    t.res.main.status ≠ Status.errArg.code → LogStops s t

theorem Underway.kept (h : Underway i s t) (hkept : MainKept t u) : Underway i s u := by
  refine ⟨hkept.ip.trans h.ip, ?_, h.log.trans (logGrows_of_eq hkept.busLog)⟩
  rw [hkept.pend, hkept.prog]
  exact h.word

theorem Settled.kept (h : Settled s t) (hkept : MainKept t u) : Settled s u := by
  refine ⟨by rw [hkept.ip]; exact h.ip, ?_⟩
  rw [hkept.ip, hkept.pend, hkept.res]
  intro hip hpend hseq harg
  obtain ⟨evs, hlog, hp⟩ := h.log hip hpend hseq harg
  exact ⟨evs, by rw [hkept.busLog, hlog], hp⟩

/-- Once the word has finished, what MAIN does next is a later word. -/
theorem Settled.step (h : Settled s t) (hstep : Machine.step t = .next u) : Settled s u := by
  have hlater := h.ip
  rcases step_main_ends_or_pends hstep with hkept | hip | ⟨hip, hpend⟩
  · exact h.kept hkept
  · exact ⟨by omega, fun h => by omega⟩
  · exact ⟨by omega, fun _ hnone => absurd hnone hpend⟩

/-- A transition of the word goes on, or ends it. -/
theorem Composes.underway_or_settled (h : Composes i t u) (hcur : t.cur = .main) (hip : t.ip.main = s.ip.main)
    (hgrows : LogGrows s t) : Underway i s u ∨ Settled s u := by
  cases h with
  | goesOn st hgo hlog =>
    obtain ⟨-, hpend, hip'⟩ := hgo
    rw [hcur] at hpend
    exact .inl ⟨by rw [hip', hip], .inr ⟨st, by rw [hpend]; rfl⟩, hgrows.trans hlog⟩
  | offBus st d hend hst =>
    obtain ⟨hres, -, hip'⟩ := hend
    rw [hcur] at hres hip'
    refine .inr ⟨by simp [hip', PerPort.set, hip], fun _ _ hseq harg => ?_⟩
    rw [hres] at hseq harg
    rcases hst with rfl | rfl
    · exact absurd rfl hseq
    · exact absurd rfl harg
  | stopped st d hend hlog =>
    obtain ⟨-, -, hip'⟩ := hend
    rw [hcur] at hip'
    exact .inr ⟨by simp [hip', PerPort.set, hip], fun _ _ _ _ => hgrows.stop hlog⟩

/-- While the word is not finished, it is what MAIN issues. -/
theorem Underway.issue (h : Underway i s t) (hcur : t.cur = .main) (hi : WellFormed i = true) :
    ∃ progs, t.issue = .run i (t.setProg progs) := by
  rw [State.issue, hcur, PerPort.get_main, PerPort.get_main]
  rcases h.word with ⟨hpend, ws, hprog⟩ | ⟨st, hpend⟩
  · exact ⟨_, by rw [hpend, hprog]; exact State.decoded_run (decode_encode hi)⟩
  · exact ⟨t.prog, by rw [hpend]; exact State.decoded_run (decode_encode hi)⟩

theorem Underway.step (h : Underway i s t) (hreg : IsRegOp i) (hi : WellFormed i = true) (hinv : t.Inv)
    (hstep : Machine.step t = .next u) : Underway i s u ∨ Settled s u := by
  obtain hkept | ⟨v, ⟨rest, rfl⟩, hmain⟩ := step_main_cases hstep
  · exact .inl (h.kept hkept)
  have hv : Underway i s ((t.setSched rest).setCur .main) := { h with }
  obtain ⟨progs, hissue⟩ := hv.issue rfl hi
  obtain ⟨-, hstands⟩ := issue_run_stands (s := (t.setSched rest).setCur .main) { hinv with } hissue
  rcases hmain with ⟨v, hillegal, -⟩ | ⟨j, v, hrun, h'⟩
  · cases hissue.symm.trans hillegal
  · cases hissue.symm.trans hrun
    exact (exec_composes hreg rfl hstands h').underway_or_settled rfl h.ip h.log

/-- What every step keeps, every run from a state that has it keeps. -/
theorem run_keeps {P : State → Prop} (hstep : ∀ u v, P u → Machine.step u = .next v → P v) (k : Nat) (hs : P s)
    (h : Sys2Proof.core.run k s = .next t) : P t := by
  induction k generalizing s with
  | zero => cases h; exact hs
  | succ k ih =>
    simp only [Host.Core.run] at h
    split at h
    · rename_i u hu
      exact ih (hstep s u hs hu) h
    · cases h
    · cases h

end

/-- Settles O46: until its word has finished MAIN logs no P for it, its last transition logs one (`exec_composes`), and
no other agent logs an event. -/
theorem oneStopPerComposite : Obligations.OneStopPerComposite := by
  intro i s t ws k hreg hi hinv hpend hprog hrun hnone hip hseq harg
  have hstart : s.Inv ∧ (Underway i s s ∨ Settled s s) :=
    ⟨hinv, .inl ⟨rfl, .inl ⟨hpend, ws, hprog⟩, logGrows_of_eq rfl⟩⟩
  have hkeeps (u v : State) (hu : u.Inv ∧ (Underway i s u ∨ Settled s u)) (hstep : Machine.step u = .next v) :
      v.Inv ∧ (Underway i s v ∨ Settled s v) := by
    obtain ⟨huinv, hunder | hsettled⟩ := hu
    · exact ⟨step_inv huinv hstep, hunder.step hreg hi huinv hstep⟩
    · exact ⟨step_inv huinv hstep, .inr (hsettled.step hstep)⟩
  obtain ⟨-, hunder | hsettled⟩ := run_keeps hkeeps k hstart hrun
  · have hsame := hunder.ip
    omega
  · exact hsettled.log hip hnone hseq harg

end Sys2Proof.Machine

namespace Sys2Proof.Machine

/-! # The bus phases and the primitive I2C operations (42_i2c.md R171 to R188) -/

/-! ## Phases and legality -/

theorem Phase.isOpen_iff {p : Phase} : p.isOpen = true ↔ p = .started ∨ p = .addressSent ∨ p = .dataPhase := by
  cases p <;> simp [Phase.isOpen]

theorem Phase.isOpen_eq_false_iff {p : Phase} : p.isOpen = false ↔ p = .idle ∨ p = .stopped := by
  cases p <;> simp [Phase.isOpen]

theorem ite_isOpen {α : Type} (p : Phase) (x y : α) :
    (if p = .started ∨ p = .addressSent ∨ p = .dataPhase then x else y) = if p.isOpen then x else y :=
  if_congr Phase.isOpen_iff.symm rfl rfl

theorem mayWrite_iff {u : I2cUnit} :
    u.mayWrite = true ↔ (u.phase = .addressSent ∨ u.phase = .dataPhase) ∧ u.dir = .write ∧ u.nak = false := by
  simp [I2cUnit.mayWrite, and_assoc]

theorem mayRead_iff {u : I2cUnit} :
    u.mayRead = true ↔ (u.phase = .addressSent ∨ u.phase = .dataPhase) ∧ u.dir = .read ∧ u.nak = false := by
  simp [I2cUnit.mayRead, and_assoc]

/-- The cells of R172 that say SEQ for a byte in the direction `d'`. -/
theorem not_legal_of_phase {u : I2cUnit} {d d' : Dir} (hd : d' ≠ d)
    (h : u.phase = .idle ∨ u.phase = .started ∨ u.phase = .stopped ∨ u.dir = d ∨ u.nak = true) :
    ¬ ((u.phase = .addressSent ∨ u.phase = .dataPhase) ∧ u.dir = d' ∧ u.nak = false) := by
  rintro ⟨hphase, hdir, hnak⟩
  simp only [hdir, hnak, hd, or_false, Bool.false_eq_true] at h
  rcases hphase with hphase | hphase <;> simp [hphase] at h

/-! ## The answers and what a phase makes of them -/

theorem bne_eq_decide_ne {α : Type} [DecidableEq α] (x y : α) : (x != y) = decide (x ≠ y) := (decide_not ..).symm

theorem addrStatus_ack (rw : Dir) : addrStatus rw .ack = if rw = .read then .addrRAck else .addrWAck := by
  cases rw <;> rfl

theorem addrStatus_nack (rw : Dir) : addrStatus rw .nack = if rw = .read then .addrRNack else .addrWNack := by
  cases rw <;> rfl

section
variable {ans : BusAnswer} {r : ByteAnswer} {bs : BusStatus}

theorem ByteAnswered.answer {onAck onNack : BusStatus} (h : ByteAnswered onAck onNack ans r bs) :
    ans.byteAnswer? = some r := by
  rcases h with ⟨rfl, rfl, -⟩ | ⟨rfl, rfl, -⟩ | ⟨rfl, rfl, -⟩ | ⟨rfl, rfl, -⟩ <;> rfl

theorem ByteAnswered.addrStatus_eq {rw : Dir} (h : ByteAnswered (addrStatus rw .ack) (addrStatus rw .nack) ans r bs) :
    addrStatus rw r = bs := by
  rcases h with ⟨-, rfl, rfl⟩ | ⟨-, rfl, rfl⟩ | ⟨-, rfl, rfl⟩ | ⟨-, rfl, rfl⟩
  · rfl
  · rfl
  · cases rw <;> rfl
  · cases rw <;> rfl

theorem ByteAnswered.writeStatus_eq (h : ByteAnswered .dataWAck .dataWNack ans r bs) : writeStatus r = bs := by
  rcases h with ⟨-, rfl, rfl⟩ | ⟨-, rfl, rfl⟩ | ⟨-, rfl, rfl⟩ | ⟨-, rfl, rfl⟩ <;> rfl

/-- A start that fails, whether or not a transaction was open (R185). -/
theorem StartFails.answer (h : StartFails ans bs) :
    ∃ r, ans.start? = some r ∧ r ≠ .ok ∧
      ∀ a rw s, State.startPhase a rw r s = (s.emitBus (.sf bs)).setI2c ⟨.started, rw, true, a, bs⟩ := by
  rcases h with ⟨rfl, rfl⟩ | ⟨rfl, rfl⟩
  · exact ⟨.lost, rfl, nofun, fun _ _ _ => rfl⟩
  · exact ⟨.berr, rfl, nofun, fun _ _ _ => rfl⟩

end

/-! ## An answered bus phase -/

section
variable {i : Instr} {s : State} {rest : List BusAnswer} {ans : BusAnswer}

theorem answer_eq {α : Type} {sel : BusAnswer → Option α} (hbus : s.busIn = ans :: rest) : s.answer sel = sel ans := by
  rw [State.answer, hbus]
  rfl

/-- A phase whose answer is the next one of I2T takes it. -/
theorem onAnswer_eq {α : Type} {sel : BusAnswer → Option α} {k : α → State → Out} {r : α}
    (hbus : s.busIn = ans :: rest) (hr : sel ans = some r) : onAnswer sel i s k = k r (s.setBusIn rest) := by
  rw [onAnswer_some ((answer_eq hbus).trans hr), hbus]
  rfl

/-- A stop that is answered (R188). -/
theorem busStop_eq {k : State → Out} (hopen : s.i2c.phase.isOpen = true) (hbus : s.busIn = .done :: rest) :
    busStop i s k = k (s.setBusIn rest).stopPhase := by
  rw [busStop, if_pos hopen]
  exact onAnswer_eq hbus rfl

/-- A stop without a transaction open (R188). -/
theorem busStop_closed {k : State → Out} (hclosed : s.i2c.phase.isOpen = false) : busStop i s k = k s := by
  rw [busStop, if_neg (by simp [hclosed])]

end

/-! ## I2C_START and I2C_RESTART (R173, R174, R184, R185) -/

/-- The address byte is the address and, below it, the direction (R184). -/
theorem addrByte_eq_append (a : BitVec 7) (rw : Dir) : addrByte a rw = a ++ dirField rw := by
  refine BitVec.eq_of_getLsbD_eq fun k hk => ?_
  simp only [addrByte, BitVec.getLsbD_append, BitVec.getLsbD_or, BitVec.getLsbD_shiftLeft, BitVec.getLsbD_setWidth]
  cases k with
  | zero => cases rw <;> rfl
  | succ k =>
    have hk' : k < 8 := by omega
    cases rw <;> simp [hk, hk']

theorem addrByte_fields (a : BitVec 7) (rw : Dir) :
    (addrByte a rw).extractLsb' 1 7 = a ∧ (addrByte a rw).getLsbD 0 = decide (rw = .read) ∧
      (addrByte a rw).toNat = 2 * a.toNat + (if rw = .read then 1 else 0) := by
  rw [addrByte_eq_append]
  refine ⟨BitVec.extractLsb'_append_eq_left, ?_, ?_⟩
  · rw [BitVec.getLsbD_append]
    cases rw <;> rfl
  · rw [BitVec.toNat_append, ← Nat.shiftLeft_add_eq_or_of_lt (dirField rw).isLt, Nat.shiftLeft_eq]
    cases rw <;> simp [dirField, Nat.mul_comm]

section
variable {i : Instr} {s : State} {rest : List BusAnswer} {ans : BusAnswer} {a : BitVec 7} {rw : Dir}

theorem exec_start (hi : i = .i2cStart a rw ∨ i = .i2cRestart a rw) (hcur : s.cur = .main) :
    exec i s = startOp i a rw s := by
  rcases hi with rfl | rfl <;> exact onPort_allowed (by simp [allowed, hcur])

/-- The address byte of a start whose two phases are two transitions (R185, log 23). -/
theorem startOp_addr {r : ByteAnswer} (hst : s.stage = .addr) (hbus : s.busIn = ans :: rest)
    (hr : ans.byteAnswer? = some r) :
    startOp i a rw s =
      .next (((s.setBusIn rest).addrPhase a rw r).finishBus (if r = .ack then .ok else .i2cFail)) := by
  rw [startOp, if_pos hst, busAddr, onAnswer_eq hbus hr]
  split <;> rfl

theorem startOp_fails {r : StartAnswer} (hst : s.stage = .start) (hbus : s.busIn = ans :: rest)
    (hr : ans.start? = some r) (hfail : r ≠ .ok) :
    startOp i a rw s = .next (((s.setBusIn rest).startPhase a rw r).finishBus .i2cFail) := by
  rw [startOp, if_neg (by simp [hst])]
  split
  · rw [startWhole, onAnswer_eq hbus hr, if_neg hfail]
  · rw [busStart, onAnswer_eq hbus hr, if_neg hfail]

/-- The start condition of a start whose two phases are two transitions (R185, log 23). -/
theorem startOp_first (hatomic : s.cfg.startAtomic = false) (hst : s.stage = .start) (hbus : s.busIn = .ok :: rest) :
    startOp i a rw s = .next (((s.setBusIn rest).startPhase a rw .ok).await i .addr) := by
  rw [startOp, if_neg (by simp [hst]), if_neg (by simp [hatomic]), busStart, onAnswer_eq (r := .ok) hbus rfl,
    if_pos rfl]

/-- A start that is one transition (R79, log 23). -/
theorem startOp_whole {r : ByteAnswer} (hatomic : s.cfg.startAtomic = true) (hst : s.stage = .start)
    (hbus : s.busIn = .ok :: ans :: rest) (hr : ans.byteAnswer? = some r) :
    startOp i a rw s =
      .next (State.finishBus (if r = .ack then .ok else .i2cFail)
        (((s.setBusIn rest).startPhase a rw .ok).addrPhase a rw r)) := by
  have hnext : (s.setBusIn (ans :: rest)).answer BusAnswer.byteAnswer? = some r := (answer_eq rfl).trans hr
  rw [startOp, if_neg (by simp [hst]), if_pos hatomic, startWhole, onAnswer_eq (r := .ok) hbus rfl,
    if_pos rfl, hnext]
  rfl

end

/-! ## A whole start -/

section
variable {i : Instr} {s t : State} {rest : List BusAnswer} {a : BitVec 7} {rw : Dir}

theorem PerPort.set_set {α : Type} (r : PerPort α) (p : Port) (x y : α) : (r.set p x).set p y = r.set p y := by
  cases p <;> rfl

theorem State.await_stage (s : State) (i : Instr) (st : Stage) : (s.await i st).stage = st := by simp [State.stage]

/-- `finish` overwrites the record of an operation in progress (R13, R34). -/
theorem finish_await (s : State) (st : Stage) (res : Status) (d : Half) :
    (s.await i st).finish res d = s.finish res d := by
  rw [State.finish, State.await, State.setPend_pend, State.setPend_cur, PerPort.set_set]
  rfl

theorem transitions_succ (h : exec i s = .next t) (k : Nat) : transitions i (k + 1) s = transitions i k t := by
  rw [transitions, h]

/-- A start that is acknowledged leaves the same state in one transition as in two (log 23). -/
theorem transitions_acknowledgedStart (hi : i = .i2cStart a rw ∨ i = .i2cRestart a rw) (hcur : s.cur = .main)
    (hst : s.stage = .start) (hbus : s.busIn = .ok :: .ack :: rest) :
    transitions i (if s.cfg.startAtomic then 1 else 2) s =
      .next ((((s.setBusIn rest).startPhase a rw .ok).addrPhase a rw .ack).finishBus .ok) := by
  cases hatomic : s.cfg.startAtomic with
  | true =>
    have hexec := (exec_start hi hcur).trans (startOp_whole hatomic hst hbus rfl)
    exact transitions_succ hexec 0
  | false =>
    have hfirst := (exec_start hi hcur).trans (startOp_first hatomic hst hbus)
    have hsecond := startOp_addr (i := i) (a := a) (rw := rw) (rest := rest)
      (State.await_stage ((s.setBusIn (.ack :: rest)).startPhase a rw .ok) i .addr) rfl rfl
    have haddr := (exec_start hi (by simp [hcur])).trans hsecond
    refine (transitions_succ hfirst 1).trans ((transitions_succ haddr 0).trans ?_)
    exact congrArg Host.Outcome.next (finish_await (i := i)
      (((s.setBusIn rest).startPhase a rw .ok).addrPhase a rw .ack) .addr .ok (zext16 (addrStatus rw .ack).code))

end

/-! ## Settled: O36 to O41 -/

/-- MAIN may issue every I2C operation (R33). -/
theorem allowed_main_of_i2c {i : Instr} (hi : unitOf i = .i2c) : allowed i .main = true := by
  cases i with
  | i2cStart | i2cRestart | i2cWrite | i2cReadAck | i2cReadNack | i2cStop | i2cWriteReg | i2cReadReg => rfl
  | _ => cases hi

/-- Settles O36: the conditions of R172 for each operation. -/
theorem illegalPhaseIsI2cSeq : Obligations.IllegalPhaseIsI2cSeq := by
  intro s hcur
  have hport {i : Instr} (hi : unitOf i = .i2c) : allowed i s.cur = true := hcur ▸ allowed_main_of_i2c hi
  refine ⟨fun h d => ?_, fun h => ?_, fun hst hopen a r n => ?_⟩
  · have hno : ¬ s.i2c.mayWrite = true := mt mayWrite_iff.1 (not_legal_of_phase (d := .read) (by simp) h)
    rw [exec, execI2cWrite, onPort_allowed (hport rfl), if_pos (by simp [hno])]
  · have hno : ¬ s.i2c.mayRead = true := mt mayRead_iff.1 (not_legal_of_phase (d := .write) (by simp) h)
    constructor
    · rw [exec, execI2cReadAck, onPort_allowed (hport rfl), if_pos (by simp [hno])]
    · rw [exec, execI2cReadNack, onPort_allowed (hport rfl), if_pos (by simp [hno])]
  · have hno : (!s.i2c.mayCompose) = true := by simp [I2cUnit.mayCompose, Phase.isOpen_iff.2 hopen]
    constructor
    · rw [exec, execI2cWriteReg, onPort_allowed (hport rfl), hst]
      exact if_pos hno
    · intro hn
      rw [exec, execI2cReadReg, onPort_allowed (hport rfl), if_neg hn, hst]
      exact if_pos hno

/-- Settles O37: the fields of the address byte, and `startOp` by its stage and its answers. -/
theorem startTransitions : Obligations.StartTransitions := by
  refine ⟨addrByte_fields, fun a rw => ?_, fun a rw i hi => ⟨fun p => ?_, fun s rest hcur => ?_⟩⟩
  · have hstart : decode (encode (.i2cStart a rw)) = _ := decode_encode rfl
    have hrestart : decode (encode (.i2cRestart a rw)) = _ := decode_encode rfl
    cases rw <;> exact ⟨hstart, hrestart⟩
  · rcases hi with rfl | rfl <;> simp [allowed]
  simp only [exec_start hi hcur, ite_isOpen, ← addrStatus_ack, ← addrStatus_nack, ← bne_eq_decide_ne]
  refine ⟨fun hatomic hst hbus => ?_, fun ans bs hans hst hbus => ?_, fun ans r bs hans hst hbus => ?_,
    fun ans r bs hans hatomic hst hbus => ?_⟩
  · rw [startOp_first hatomic hst hbus, ← hcur]
    rfl
  · obtain ⟨r, hr, hfail, hphase⟩ := StartFails.answer hans
    rw [startOp_fails hst hbus hr hfail, hphase]
    rfl
  · have hans : ByteAnswered (addrStatus rw .ack) (addrStatus rw .nack) ans r bs := hans
    rw [startOp_addr hst hbus hans.answer, ← hans.addrStatus_eq]
    rfl
  · rw [startOp_whole hatomic hst hbus hans.answer, ← hans.addrStatus_eq, List.append_cons]
    rfl

/-- Settles O38: the state a whole start leaves (`transitions_acknowledgedStart`). -/
theorem acknowledgedStartCompletes : Obligations.AcknowledgedStartCompletes := by
  intro a rw i s rest hi hcur hst hbus
  refine ⟨_, transitions_acknowledgedStart hi hcur hst hbus, rfl, rfl, rfl, rfl, rfl, ?_⟩
  simp only [State.finishBus, State.finish_ip, State.finish_pend, State.finish_res, State.addrPhase_cur,
    State.startPhase_cur, State.setBusIn_cur, hcur]
  refine ⟨rfl, rfl, ?_, (List.append_cons _ _ _).symm⟩
  cases rw <;> rfl

/-- Settles O39: a written byte that may be written is sent, and its answer taken. -/
theorem busWriteTransition : Obligations.BusWriteTransition := by
  refine fun d => ⟨decode_of_operand rfl rfl, fun p => by simp [allowed],
    fun s rest ans r bs hcur hphase hdir hnak hans hbus => ?_⟩
  have hans : ByteAnswered .dataWAck .dataWNack ans r bs := hans
  have hmay : ¬ (!s.i2c.mayWrite) = true := by simp [mayWrite_iff.2 ⟨hphase, hdir, hnak⟩]
  rw [exec, execI2cWrite, onPort_allowed (by simp [allowed, hcur]), if_neg hmay, busWrite,
    onAnswer_eq hbus hans.answer, ← hans.writeStatus_eq, ← bne_eq_decide_ne]
  split <;> rfl

/-- Settles O40: a byte that may be read is received, and the reply sent. -/
theorem busReadTransitions : Obligations.BusReadTransitions := by
  refine ⟨decode_encode (i := .i2cReadAck) rfl, decode_encode (i := .i2cReadNack) rfl, fun p => by simp [allowed],
    fun s rest b hcur hphase hdir hnak hbus => ?_⟩
  have hmay : ¬ (!s.i2c.mayRead) = true := by simp [mayRead_iff.2 ⟨hphase, hdir, hnak⟩]
  constructor
  · rw [exec, execI2cReadAck, onPort_allowed (by simp [allowed, hcur]), if_neg hmay, busRead,
      onAnswer_eq (r := b) hbus rfl]
    rfl
  · rw [exec, execI2cReadNack, onPort_allowed (by simp [allowed, hcur]), if_neg hmay, busRead,
      onAnswer_eq (r := b) hbus rfl]
    rfl

/-- Settles O41: a stop that is answered (`busStop_eq`), or none where no transaction is open. -/
theorem busStopTransition : Obligations.BusStopTransition := by
  refine ⟨decode_encode (i := .i2cStop) rfl, fun p => by simp [allowed], fun s rest hcur => ?_⟩
  have hport : exec .i2cStop s = _ := onPort_allowed (by simp [allowed, hcur])
  refine ⟨fun hopen hbus => ?_, fun hclosed => ?_⟩
  · rw [hport, busStop_eq (Phase.isOpen_iff.2 hopen) hbus]
    rfl
  · rw [hport, busStop_closed (Phase.isOpen_eq_false_iff.2 hclosed)]
    rfl

end Sys2Proof.Machine

namespace Sys2Proof.Machine

/-! # The composite I2C operations, phase by phase (42_i2c.md R180, R181) -/

/-! ## A phase from which a composite goes on -/

section
variable {i : Instr} {s : State} {rest : List BusAnswer} {ans : BusAnswer} {a : BitVec 7} {rw : Dir} {st : Stage}

/-- What a bus phase of a composite leaves, as the updates that the model makes. -/
theorem afterPhase_eq_await (hcur : s.cur = .main) (e : BusEvent) (u : I2cUnit) :
    s.afterPhase i rest e u st = (((s.setBusIn rest).emitBus e).setI2c u).await i st := by
  rw [State.afterPhase, ← hcur]
  rfl

theorem composeStart_ok (hcur : s.cur = .main) (hbus : s.busIn = .ok :: rest) :
    busStart i a rw s (fun t => .next (t.await i st)) (fun t => .next (t.await i .abort)) =
      .next (s.afterPhase i rest (if s.i2c.phase.isOpen then .sr else .s)
        ⟨.started, rw, false, a, if s.i2c.phase.isOpen then .repStart else .start⟩ st) := by
  rw [afterPhase_eq_await hcur, busStart, onAnswer_eq (r := .ok) hbus rfl]
  rfl

theorem composeStart_fails {bs : BusStatus} (hcur : s.cur = .main) (hans : StartFails ans bs)
    (hbus : s.busIn = ans :: rest) :
    busStart i a rw s (fun t => .next (t.await i st)) (fun t => .next (t.await i .abort)) =
      .next (s.afterPhase i rest (.sf bs) ⟨.started, rw, true, a, bs⟩ .abort) := by
  obtain ⟨r, hr, hfail, hphase⟩ := hans.answer
  rw [afterPhase_eq_await hcur, busStart, onAnswer_eq hbus hr, if_neg hfail, hphase]

theorem composeAddr_eq {r : ByteAnswer} {bs : BusStatus} (hcur : s.cur = .main)
    (hans : ByteAnswered (addrStatus rw .ack) (addrStatus rw .nack) ans r bs) (hbus : s.busIn = ans :: rest) :
    busAddr i a rw s (fun t => .next (t.await i st)) (fun t => .next (t.await i .abort)) =
      .next (s.afterPhase i rest (.a (addrByte a rw) r)
        { s.i2c with phase := .addressSent, nak := decide (r ≠ .ack), lastBs := bs }
        (if r = .ack then st else .abort)) := by
  rw [afterPhase_eq_await hcur, busAddr, onAnswer_eq hbus hans.answer, ← hans.addrStatus_eq, ← bne_eq_decide_ne]
  split <;> rfl

theorem composeWrite_eq {d : Byte} {r : ByteAnswer} {bs : BusStatus} (hcur : s.cur = .main)
    (hans : ByteAnswered .dataWAck .dataWNack ans r bs) (hbus : s.busIn = ans :: rest) :
    busWrite i d s (fun t => .next (t.await i st)) (fun t => .next (t.await i .abort)) =
      .next (s.afterPhase i rest (.w d r)
        { s.i2c with phase := .dataPhase, nak := decide (r ≠ .ack), lastBs := bs }
        (if r = .ack then st else .abort)) := by
  rw [afterPhase_eq_await hcur, busWrite, onAnswer_eq hbus hans.answer, ← hans.writeStatus_eq, ← bne_eq_decide_ne]
  split <;> rfl

end

/-! ## The stages that both composites share -/

/-- An I2C_WRITE_REG, or an I2C_READ_REG that has bytes to read. -/
def Composite (a : BitVec 7) (reg : Byte) (n : Nat) (i : Instr) : Prop :=
  i = .i2cWriteReg a reg n ∨ (i = .i2cReadReg a reg n ∧ n ≠ 0)

section
variable {i : Instr} {s : State} {rest : List BusAnswer} {ans : BusAnswer} {a : BitVec 7} {reg : Byte} {n j : Nat}

theorem exec_compose_start (hi : Composite a reg n i) (hcur : s.cur = .main) (hst : s.stage = .start)
    (hclosed : s.i2c.phase.isOpen = false) :
    exec i s = busStart i a .write s (fun t => .next (t.await i .addr)) (fun t => .next (t.await i .abort)) := by
  have hmay : ¬ (!s.i2c.mayCompose) = true := by simp [I2cUnit.mayCompose, hclosed]
  rcases hi with rfl | ⟨rfl, hn⟩
  · rw [exec, execI2cWriteReg, onPort_allowed (by simp [allowed, hcur]), hst]
    exact if_neg hmay
  · rw [exec, execI2cReadReg, onPort_allowed (by simp [allowed, hcur]), if_neg hn, hst]
    exact if_neg hmay

theorem exec_compose_addr (hi : Composite a reg n i) (hcur : s.cur = .main) (hst : s.stage = .addr) :
    exec i s = busAddr i a .write s (fun t => .next (t.await i .reg)) (fun t => .next (t.await i .abort)) := by
  rcases hi with rfl | ⟨rfl, hn⟩
  · rw [exec, execI2cWriteReg, onPort_allowed (by simp [allowed, hcur]), hst]
  · rw [exec, execI2cReadReg, onPort_allowed (by simp [allowed, hcur]), if_neg hn, hst]

theorem exec_compose_reg (hi : Composite a reg n i) (hcur : s.cur = .main) (hst : s.stage = .reg) :
    exec i s = busWrite i reg s
      (fun t => .next (t.await i (if i = .i2cWriteReg a reg n then .data 0 else .restart)))
      (fun t => .next (t.await i .abort)) := by
  rcases hi with rfl | ⟨rfl, hn⟩
  · rw [exec, execI2cWriteReg, onPort_allowed (by simp [allowed, hcur]), hst, if_pos rfl]
  · have hread : Instr.i2cReadReg a reg n ≠ .i2cWriteReg a reg n := by simp
    rw [exec, execI2cReadReg, onPort_allowed (by simp [allowed, hcur]), if_neg hn, hst, if_neg hread]

/-! ## I2C_WRITE_REG: data bytes and stops -/

/-- A read of BUF gives its byte, or the free value of this draw (R53). -/
theorem readByte_buf_eq {k : Byte → State → Out} (hj : j < 256) :
    readByte .bufmem j s k = k ((Mem.get? s.buf j).getD (Config.freeByte s.draws))
      (s.setDraws (if s.bufWritten j then s.draws else s.draws + 1)) := by
  cases hget : Mem.get? s.buf j with
  | some b =>
    rw [readByte_settled hj (s.peek_buf j ▸ hget)]
    simp only [State.bufWritten, hget]
    rfl
  | none =>
    rw [readByte_free hj (s.peek_buf j ▸ hget)]
    simp only [State.bufWritten, hget]
    rfl

theorem exec_writeReg_data {r : ByteAnswer} {bs : BusStatus} (hn : n < 256) (hcur : s.cur = .main)
    (hst : s.stage = .data j) (hj : j < n) (hans : ByteAnswered .dataWAck .dataWNack ans r bs)
    (hbus : s.busIn = ans :: rest) :
    exec (.i2cWriteReg a reg n) s =
      .next (State.afterPhase (.i2cWriteReg a reg n) rest
        (.w ((Mem.get? s.buf j).getD (Config.freeByte s.draws)) r)
        { s.i2c with phase := .dataPhase, nak := decide (r ≠ .ack), lastBs := bs }
        (if r = .ack then .data (j + 1) else .abort)
        (s.setDraws (if s.bufWritten j then s.draws else s.draws + 1))) := by
  rw [exec, execI2cWriteReg, onPort_allowed (by simp [allowed, hcur]), hst]
  dsimp only
  rw [if_pos hj, onAnswer_eq hbus hans.answer, readByte_buf_eq (hj.trans hn),
    afterPhase_eq_await ((State.setDraws_cur _ s).trans hcur), ← hans.writeStatus_eq, ← bne_eq_decide_ne]
  rfl

theorem exec_writeReg_stop (hcur : s.cur = .main) (hst : s.stage = .data n) (hopen : s.i2c.phase.isOpen = true)
    (hbus : s.busIn = .done :: rest) :
    exec (.i2cWriteReg a reg n) s = .next ((s.setBusIn rest).stopPhase.finish .ok 0) := by
  rw [exec, execI2cWriteReg, onPort_allowed (by simp [allowed, hcur]), hst]
  dsimp only
  rw [if_neg (lt_irrefl n), busStop_eq hopen hbus]

theorem exec_writeReg_abort (hcur : s.cur = .main) (hst : s.stage = .abort) (hopen : s.i2c.phase.isOpen = true)
    (hbus : s.busIn = .done :: rest) :
    exec (.i2cWriteReg a reg n) s =
      .next ((s.setBusIn rest).stopPhase.finish .i2cFail (zext16 s.i2c.lastBs.code)) := by
  rw [exec, execI2cWriteReg, onPort_allowed (by simp [allowed, hcur]), hst]
  exact busStop_eq hopen hbus

/-! ## I2C_READ_REG: the second start, data bytes and stops -/

theorem exec_readReg_restart (hn : n ≠ 0) (hcur : s.cur = .main) (hst : s.stage = .restart) :
    exec (.i2cReadReg a reg n) s = busStart (.i2cReadReg a reg n) a .read s
      (fun t => .next (t.await (.i2cReadReg a reg n) .raddr))
      (fun t => .next (t.await (.i2cReadReg a reg n) .abort)) := by
  rw [exec, execI2cReadReg, onPort_allowed (by simp [allowed, hcur]), if_neg hn, hst]

theorem exec_readReg_raddr (hn : n ≠ 0) (hcur : s.cur = .main) (hst : s.stage = .raddr) :
    exec (.i2cReadReg a reg n) s = busAddr (.i2cReadReg a reg n) a .read s
      (fun t => .next (t.await (.i2cReadReg a reg n) (.data 0)))
      (fun t => .next (t.await (.i2cReadReg a reg n) .abort)) := by
  rw [exec, execI2cReadReg, onPort_allowed (by simp [allowed, hcur]), if_neg hn, hst]

theorem exec_readReg_data {b : Byte} (hn : n < 256) (hcur : s.cur = .main) (hst : s.stage = .data j) (hj : j < n)
    (hbus : s.busIn = .byte b :: rest) :
    exec (.i2cReadReg a reg n) s =
      .next (State.afterPhase (.i2cReadReg a reg n) rest (.r b (if j + 1 < n then .ack else .nack))
        { s.i2c with phase := .dataPhase, nak := decide (j + 1 = n),
                     lastBs := if j + 1 < n then .dataRAck else .dataRNack }
        (.data (j + 1)) (s.setBuf (Mem.write none s.buf j b))) := by
  rw [exec, execI2cReadReg, onPort_allowed (by simp [allowed, hcur]), if_neg (by omega), hst]
  dsimp only
  rw [if_pos hj, busRead, onAnswer_eq (r := b) hbus rfl, writeByte_eq (sp := .bufmem) (hj.trans hn),
    afterPhase_eq_await ((State.setBuf_cur _ s).trans hcur)]
  by_cases hmore : j + 1 < n
  · simp only [hmore, hmore.ne]
    rfl
  · obtain rfl : n = j + 1 := by omega
    simp only [lt_irrefl]
    rfl

theorem exec_readReg_stop {b : Byte} (hn : n ≠ 0) (hcur : s.cur = .main) (hst : s.stage = .data n)
    (hopen : s.i2c.phase.isOpen = true) (hbus : s.busIn = .done :: rest) (hb : Mem.get? s.buf 0 = some b) :
    exec (.i2cReadReg a reg n) s = .next ((s.setBusIn rest).stopPhase.finish .ok (zext16 b)) := by
  have hread : (s.setBusIn rest).stopPhase.peek .bufmem 0 = some b := (State.peek_buf _ 0).trans hb
  rw [exec, execI2cReadReg, onPort_allowed (by simp [allowed, hcur]), if_neg hn, hst]
  dsimp only
  rw [if_neg (lt_irrefl n), busStop_eq hopen hbus, readByte_settled (show 0 < 256 by decide) hread]

theorem exec_readReg_abort (hn : n ≠ 0) (hn' : n < 256) (hcur : s.cur = .main) (hst : s.stage = .abort)
    (hopen : s.i2c.phase.isOpen = true) (hbus : s.busIn = .done :: rest) :
    exec (.i2cReadReg a reg n) s =
      .next (((s.setBusIn rest).stopPhase.setBuf (zeroed n s.buf)).finish .i2cFail 0) := by
  rw [exec, execI2cReadReg, onPort_allowed (by simp [allowed, hcur]), if_neg hn, hst]
  exact (busStop_eq hopen hbus).trans (zeroBuf_eq hn'.le)

theorem exec_readReg_zero (hcur : s.cur = .main) : exec (.i2cReadReg a reg 0) s = .next (s.finish .errArg 0) := by
  rw [exec, execI2cReadReg, onPort_allowed (by simp [allowed, hcur]), if_pos rfl]

end

/-- Settles O45: each phase of the composites, for each answer. -/
theorem failedCompositeEnds : Obligations.FailedCompositeEnds := by
  intro a reg n s rest hn hcur
  refine ⟨fun i hi => ⟨fun hst hclosed => ?_, fun hst ans r bs hans hbus => ?_, fun hst ans r bs hans hbus => ?_⟩,
    fun j hst hj ans r bs hans hbus => exec_writeReg_data hn hcur hst hj hans hbus,
    fun hn0 => ⟨fun hst => ?_, fun hst ans r bs hans hbus => ?_, fun j b hst hj hbus => ?_⟩,
    fun hst hopen hbus => ?_, exec_readReg_zero hcur⟩
  · have hclosed : s.i2c.phase.isOpen = false := Phase.isOpen_eq_false_iff.2 hclosed
    rw [exec_compose_start hi hcur hst hclosed]
    refine ⟨fun hbus => ?_, fun ans bs hans hbus => composeStart_fails hcur hans hbus⟩
    rw [composeStart_ok hcur hbus, hclosed]
    rfl
  · rw [exec_compose_addr hi hcur hst]
    exact composeAddr_eq hcur hans hbus
  · rw [exec_compose_reg hi hcur hst, composeWrite_eq hcur hans hbus, ite_not]
  · rw [exec_readReg_restart hn0 hcur hst]
    exact ⟨composeStart_ok hcur, fun ans bs hans hbus => composeStart_fails hcur hans hbus⟩
  · rw [exec_readReg_raddr hn0 hcur hst]
    exact composeAddr_eq hcur hans hbus
  · exact ⟨_, fun k => Mem.get?_write_none s.buf j k b, exec_readReg_data hn hcur hst hj hbus⟩
  · refine ⟨exec_writeReg_abort hcur hst hopen hbus, fun hn0 => ?_⟩
    exact ⟨_, exec_readReg_abort hn0 hn hcur hst hopen hbus, ended_finish rfl, rfl, rfl, zeroed_get? n s.buf⟩

end Sys2Proof.Machine

namespace Sys2Proof.Machine

/-! # Composite I2C operations that are acknowledged throughout (42_i2c.md R180, R181; 70_reset_and_hazards.md R288) -/

/-! ## What a composite that completes leaves -/

/-- A composite has ended with (OK, d) and its stop: BUS_LOG has gained `evs`, BUF is `m`, and `k` free bytes have been
drawn in all. -/
def State.composed (rest : List BusAnswer) (a : BitVec 7) (d : Half) (evs : List BusEvent) (m : Memory) (k : Nat)
    (s : State) : State :=
  State.finish .ok d { s with
    busIn := rest, logs := { s.logs with busLog := s.logs.busLog ++ evs }, i2c := ⟨.stopped, .write, false, a, .stop⟩,
    buf := m, draws := k }

section
variable {i : Instr} {s : State} {rest l : List BusAnswer} {a : BitVec 7} {reg : Byte} {n j k : Nat} {d : Half}
  {evs : List BusEvent} {m : Memory}

theorem State.afterPhase_main (hcur : s.cur = .main) (e : BusEvent) (u : I2cUnit) (st : Stage) :
    (s.afterPhase i l e u st).cur = .main := hcur

/-- The events of a composite are logged one phase after the other. -/
theorem composed_afterPhase (hcur : s.cur = .main) (e : BusEvent) (u : I2cUnit) (st : Stage) :
    (s.afterPhase i l e u st).composed rest a d evs m k = s.composed rest a d (e :: evs) m k := by
  rw [afterPhase_eq_await hcur, State.composed, State.composed, List.append_cons]
  exact finish_await { s with
    busIn := rest, logs := { s.logs with busLog := s.logs.busLog ++ [e] ++ evs },
    i2c := ⟨.stopped, .write, false, a, .stop⟩, buf := m, draws := k } st .ok d

theorem composed_main (hcur : s.cur = .main) :
    (s.composed rest a d evs m k).res.main = ⟨0x00, d⟩ ∧ (s.composed rest a d evs m k).pend.main = none ∧
      (s.composed rest a d evs m k).ip.main = s.ip.main + 1 := by
  simp only [State.composed, State.finish_res, State.finish_pend, State.finish_ip, hcur]
  exact ⟨rfl, rfl, rfl⟩

/-- A stop that ends a composite (R188). -/
theorem composed_stop (haddr : s.i2c.addr = a) :
    (s.setBusIn rest).stopPhase.finish .ok d = s.composed rest a d [.p] s.buf s.draws := by
  rw [← haddr]
  rfl

/-! ## From the start condition to the register byte -/

/-- The first start, the address byte and the register byte of a composite have been acknowledged, and it goes on
at `st`. -/
def State.selected (i : Instr) (a : BitVec 7) (reg : Byte) (rest : List BusAnswer) (st : Stage) (s : State) : State :=
  ((s.afterPhase i (.ack :: .ack :: rest) .s ⟨.started, .write, false, a, .start⟩ .addr).afterPhase i (.ack :: rest)
    (.a (addrByte a .write) .ack) ⟨.addressSent, .write, false, a, .addrWAck⟩ .reg).afterPhase i rest
    (.w reg .ack) ⟨.dataPhase, .write, false, a, .dataWAck⟩ st

theorem State.selected_main (hcur : s.cur = .main) (st : Stage) : (s.selected i a reg l st).cur = .main := hcur

theorem State.selected_stage (hcur : s.cur = .main) (st : Stage) : (s.selected i a reg l st).stage = st :=
  State.afterPhase_stage hcur

theorem composed_selected (hcur : s.cur = .main) (st : Stage) :
    (s.selected i a reg l st).composed rest a d evs m k =
      s.composed rest a d (.s :: .a (addrByte a .write) .ack :: .w reg .ack :: evs) m k := by
  rw [State.selected, composed_afterPhase (State.afterPhase_main (State.afterPhase_main hcur ..) ..),
    composed_afterPhase (State.afterPhase_main hcur ..), composed_afterPhase hcur]

theorem byteAnswered_ack (onAck onNack : BusStatus) : ByteAnswered onAck onNack .ack .ack onAck := .inl ⟨rfl, rfl, rfl⟩

theorem transitions_selected (hi : Composite a reg n i) (hcur : s.cur = .main) (hst : s.stage = .start)
    (hclosed : s.i2c.phase.isOpen = false) (hbus : s.busIn = .ok :: .ack :: .ack :: rest) (k : Nat) :
    transitions i (k + 3) s =
      transitions i k (s.selected i a reg rest (if i = .i2cWriteReg a reg n then .data 0 else .restart)) := by
  have hstart := (exec_compose_start hi hcur hst hclosed).trans (composeStart_ok hcur hbus)
  rw [hclosed] at hstart
  refine (transitions_succ hstart _).trans ?_
  have hcur₁ := State.afterPhase_main (i := i) (l := .ack :: .ack :: rest) hcur .s
    ⟨.started, .write, false, a, .start⟩ .addr
  have haddr := (exec_compose_addr hi hcur₁ (State.afterPhase_stage hcur)).trans
    (composeAddr_eq (rw := .write) hcur₁ (byteAnswered_ack ..) rfl)
  refine (transitions_succ haddr _).trans ?_
  have hcur₂ := State.afterPhase_main (i := i) (l := .ack :: rest) hcur₁ (.a (addrByte a .write) .ack)
    ⟨.addressSent, .write, false, a, .addrWAck⟩ .reg
  exact transitions_succ ((exec_compose_reg hi hcur₂ (State.afterPhase_stage hcur₁)).trans
    (composeWrite_eq hcur₂ (byteAnswered_ack ..) rfl)) _

/-! ## The second start of I2C_READ_REG -/

/-- The second start and the read-address byte of an I2C_READ_REG have been acknowledged. -/
def State.reselected (i : Instr) (a : BitVec 7) (rest : List BusAnswer) (s : State) : State :=
  (s.afterPhase i (.ack :: rest) .sr ⟨.started, .read, false, a, .repStart⟩ .raddr).afterPhase i rest
    (.a (addrByte a .read) .ack) ⟨.addressSent, .read, false, a, .addrRAck⟩ (.data 0)

theorem composed_reselected (hcur : s.cur = .main) :
    (s.reselected i a l).composed rest a d evs m k =
      s.composed rest a d (.sr :: .a (addrByte a .read) .ack :: evs) m k := by
  rw [State.reselected, composed_afterPhase (State.afterPhase_main hcur ..), composed_afterPhase hcur]

theorem transitions_reselected (hn : n ≠ 0) (hcur : s.cur = .main) (hst : s.stage = .restart)
    (hopen : s.i2c.phase.isOpen = true) (hbus : s.busIn = .ok :: .ack :: rest) (k : Nat) :
    transitions (.i2cReadReg a reg n) (k + 2) s =
      transitions (.i2cReadReg a reg n) k (s.reselected (.i2cReadReg a reg n) a rest) := by
  have hstart := (exec_readReg_restart (a := a) (reg := reg) hn hcur hst).trans (composeStart_ok hcur hbus)
  rw [hopen] at hstart
  refine (transitions_succ hstart _).trans ?_
  have hcur₁ := State.afterPhase_main (i := .i2cReadReg a reg n) (l := .ack :: rest) hcur .sr
    ⟨.started, .read, false, a, .repStart⟩ .raddr
  exact transitions_succ ((exec_readReg_raddr hn hcur₁ (State.afterPhase_stage hcur)).trans
    (composeAddr_eq hcur₁ (byteAnswered_ack ..) rfl)) _

/-! ## The data bytes of I2C_WRITE_REG -/

/-- BUF[j .. j + len - 1], with `none` for a byte nothing has written (R53). -/
def State.bufFrom (s : State) (j len : Nat) : List (Option Byte) := (List.range' j len).map (Mem.get? s.buf)

theorem bufBytes_eq_bufFrom (s : State) (n : Nat) : s.bufBytes n = s.bufFrom 0 n := by
  rw [State.bufBytes, State.bufFrom, List.range_eq_range']

theorem bufFrom_succ (s : State) (j len : Nat) : s.bufFrom j (len + 1) = Mem.get? s.buf j :: s.bufFrom (j + 1) len := rfl

theorem readsFrom_cons (o : Option Byte) (l : List (Option Byte)) (k : Nat) :
    readsFrom (o :: l) k = o.getD (Config.freeByte k) :: readsFrom l (if o.isSome then k else k + 1) := by
  cases o <;> rfl

theorem draws_cons (o : Option Byte) (l : List (Option Byte)) (k : Nat) :
    (if o.isSome then k else k + 1) + l.count none = k + (o :: l).count none := by
  cases o with
  | some b => simp
  | none => simp [Nat.add_assoc, Nat.add_comm 1]

/-- Data bytes j to n - 1 and the stop: each byte is read once, in order. -/
theorem transitions_writeReg_data {len : Nat} (hn : n < 256) (hcur : s.cur = .main) (hst : s.stage = .data j)
    (hlen : j + len = n) (hopen : s.i2c.phase.isOpen = true) (haddr : s.i2c.addr = a)
    (hbus : s.busIn = List.replicate len .ack ++ .done :: rest) :
    transitions (.i2cWriteReg a reg n) (len + 1) s =
      .next (s.composed rest a 0 ((readsFrom (s.bufFrom j len) s.draws).map (fun b => .w b .ack) ++ [.p]) s.buf
        (s.draws + (s.bufFrom j len).count none)) := by
  induction len generalizing s j with
  | zero =>
    obtain rfl : j = n := hlen
    rw [transitions_succ (exec_writeReg_stop hcur hst hopen hbus), composed_stop haddr]
    rfl
  | succ len ih =>
    have hexec := exec_writeReg_data (a := a) (reg := reg) hn hcur hst (by omega) (byteAnswered_ack ..) hbus
    refine (transitions_succ hexec _).trans ((ih (j := j + 1) ?_ ?_ (by omega) ?_ ?_ ?_).trans ?_)
    · exact hcur
    · exact State.afterPhase_stage hcur
    · rfl
    · exact haddr
    · rfl
    rw [composed_afterPhase ((State.setDraws_cur _ s).trans hcur), bufFrom_succ, readsFrom_cons, ← draws_cons]
    rfl

/-! ## The data bytes of I2C_READ_REG -/

/-- BUF after bytes are stored from index j on. -/
def stored : Nat → List Byte → Memory → Memory
  | _, [], m => m
  | j, b :: l, m => stored (j + 1) l (Mem.write none m j b)

theorem get?_stored (j : Nat) (l : List Byte) (m : Memory) (k : Nat) :
    Mem.get? (stored j l m) k = if k < j then Mem.get? m k else l[k - j]?.or (Mem.get? m k) := by
  induction l generalizing j m with
  | nil => simp [stored]
  | cons b l ih =>
    rw [stored, ih, Mem.get?_write_none]
    rcases lt_trichotomy k j with h | rfl | h
    · simp [h, h.ne, Nat.lt_succ_of_lt h]
    · simp
    · obtain ⟨c, rfl⟩ := Nat.exists_eq_add_of_lt h
      have hc : j + c + 1 - j = c + 1 := by omega
      have hc' : j + c + 1 - (j + 1) = c := by omega
      simp [hc, hc', h.ne', h.not_gt]

/-- The events of the data phases of I2C_READ_REG: every byte but the last is acknowledged (R181). -/
def readEvents : List Byte → List BusEvent
  | [] => []
  | b :: l => .r b (if l = [] then .nack else .ack) :: readEvents l

theorem readEvents_eq {l : List Byte} (hl : l ≠ []) :
    readEvents l = l.dropLast.map (fun b => .r b .ack) ++ [.r (l.getLast hl) .nack] := by
  induction l with
  | nil => exact absurd rfl hl
  | cons b l ih =>
    cases l with
    | nil => rfl
    | cons c l =>
      rw [readEvents, ih (by simp)]
      simp

theorem transitions_readReg_data {bytes : List Byte} {b : Byte} (hn : n < 256) (hcur : s.cur = .main)
    (hst : s.stage = .data j) (hn0 : n ≠ 0) (hlen : j + bytes.length = n) (hopen : s.i2c.phase.isOpen = true)
    (haddr : s.i2c.addr = a) (hbus : s.busIn = bytes.map .byte ++ .done :: rest)
    (hb : Mem.get? (stored j bytes s.buf) 0 = some b) :
    transitions (.i2cReadReg a reg n) (bytes.length + 1) s =
      .next (s.composed rest a (zext16 b) (readEvents bytes ++ [.p]) (stored j bytes s.buf) s.draws) := by
  induction bytes generalizing s j with
  | nil =>
    obtain rfl : j = n := hlen
    rw [List.length_nil, transitions_succ (exec_readReg_stop hn0 hcur hst hopen hbus hb), composed_stop haddr]
    rfl
  | cons c bytes ih =>
    have hlen' : j + 1 + bytes.length = n := by rw [List.length_cons] at hlen; omega
    have hexec := exec_readReg_data (a := a) (reg := reg) hn hcur hst (by omega) hbus
    refine (transitions_succ hexec _).trans ((ih (j := j + 1) ?_ ?_ hlen' ?_ ?_ ?_ ?_).trans ?_)
    · exact hcur
    · exact State.afterPhase_stage hcur
    · rfl
    · exact haddr
    · rfl
    · exact hb
    have hmore : j + 1 < n ↔ ¬ bytes = [] := by
      rw [← hlen', ← List.length_eq_zero_iff]
      omega
    rw [composed_afterPhase ((State.setBuf_cur _ s).trans hcur), readEvents, if_congr hmore rfl rfl, ite_not]
    rfl

end

/-! ## Settled: O43, O44 -/

/-- Settles O43: the phases up to the register byte (`transitions_selected`), and the data bytes and the stop
(`transitions_writeReg_data`). -/
theorem writeRegCompletes : Obligations.WriteRegCompletes := by
  intro a reg n s rest hn hcur hst hclosed hbus
  have hi : Composite a reg n (.i2cWriteReg a reg n) := .inl rfl
  have hselected := transitions_selected hi hcur hst (Phase.isOpen_eq_false_iff.2 hclosed) hbus (n + 1)
  have hdata := transitions_writeReg_data (a := a) (reg := reg) (rest := rest) (len := n)
    (s := s.selected (.i2cWriteReg a reg n) a reg (List.replicate n .ack ++ .done :: rest) (.data 0)) hn hcur
    (State.afterPhase_stage hcur) (Nat.zero_add n) rfl rfl rfl
  rw [if_pos rfl] at hselected
  rw [composed_selected hcur] at hdata
  obtain ⟨hres, hpend, hip⟩ := composed_main (s := s) hcur
  refine ⟨_, hselected.trans hdata, hres, hpend, hip, rfl, rfl, rfl, ?_⟩
  rw [State.unwritten, State.bufReads, bufBytes_eq_bufFrom]
  exact ⟨rfl, rfl⟩

/-- BUF[0 .. n - 1] after n bytes are stored from index 0 on. -/
theorem bufBytes_stored {t : State} {l : List Byte} {m : Memory} (h : t.buf = stored 0 l m) :
    t.bufBytes l.length = l.map some := by
  refine List.ext_getElem (by simp [State.bufBytes]) fun k hk hk' => ?_
  have hlt : k < l.length := by simpa using hk'
  simp [State.bufBytes, h, get?_stored, hlt]

/-- I2C_READ_REG acknowledged up to its first data byte. -/
theorem transitions_readReg_reselected {s : State} {rest : List BusAnswer} {a : BitVec 7} {reg : Byte} {n : Nat}
    (hn : n ≠ 0) (hcur : s.cur = .main) (hst : s.stage = .start) (hclosed : s.i2c.phase.isOpen = false)
    (hbus : s.busIn = .ok :: .ack :: .ack :: .ok :: .ack :: rest) (k : Nat) :
    transitions (.i2cReadReg a reg n) (k + 5) s = transitions (.i2cReadReg a reg n) k
      ((s.selected (.i2cReadReg a reg n) a reg (.ok :: .ack :: rest) .restart).reselected
        (.i2cReadReg a reg n) a rest) := by
  have hi : Composite a reg n (.i2cReadReg a reg n) := .inr ⟨rfl, hn⟩
  rw [transitions_selected hi hcur hst hclosed hbus (k + 2), if_neg (by simp)]
  exact transitions_reselected hn (State.selected_main hcur _) (State.selected_stage hcur _) rfl rfl k

/-- Settles O44: the phases up to the register byte (`transitions_selected`), the second start
(`transitions_reselected`), and the data bytes and the stop (`transitions_readReg_data`). -/
theorem readRegCompletes : Obligations.ReadRegCompletes := by
  intro a reg b bytes s rest hn hcur hst hclosed hbus
  generalize hl : (b :: bytes).map BusAnswer.byte ++ .done :: rest = l at hbus
  have hstart := transitions_readReg_reselected (a := a) (reg := reg) (n := bytes.length + 1) nofun hcur hst
    (Phase.isOpen_eq_false_iff.2 hclosed) hbus (bytes.length + 2)
  have hfirst : Mem.get? (stored 0 (b :: bytes) s.buf) 0 = some b := by rw [get?_stored]; rfl
  have hdata := transitions_readReg_data (a := a) (reg := reg) (n := bytes.length + 1) (rest := rest)
    (s := (s.selected (.i2cReadReg a reg (bytes.length + 1)) a reg (.ok :: .ack :: l) .restart).reselected
      (.i2cReadReg a reg (bytes.length + 1)) a l) (j := 0) (bytes := b :: bytes) hn hcur
    (State.afterPhase_stage hcur) nofun (Nat.zero_add _) rfl rfl hl.symm hfirst
  rw [composed_reselected (State.selected_main hcur _), composed_selected hcur, readEvents_eq (by simp)] at hdata
  obtain ⟨hres, hpend, hip⟩ := composed_main (s := s) hcur
  exact ⟨_, hstart.trans hdata, hres, hpend, hip, rfl, rfl, bufBytes_stored (l := b :: bytes) rfl, rfl⟩

end Sys2Proof.Machine

namespace Sys2Proof.Machine

/-! # The modes of a program cycle (43_eeprom.md R201, R205) -/

section
variable {old new : Byte}

/-- Some bit goes from 0 to 1, which a write alone cannot do (R201). -/
def Raises (old new : Byte) : Prop := ∃ k, old.getLsbD k = false ∧ new.getLsbD k = true

theorem xor_and_ne_zero_iff_raises : (old ^^^ new) &&& new ≠ 0 ↔ Raises old new := by
  have hbit (k : Nat) : ((old ^^^ new) &&& new).getLsbD k = (!old.getLsbD k && new.getLsbD k) := by
    rw [BitVec.getLsbD_and, BitVec.getLsbD_xor]
    cases old.getLsbD k <;> cases new.getLsbD k <;> rfl
  constructor
  · intro hne
    by_contra hraise
    refine hne (BitVec.eq_of_getLsbD_eq fun k _ => ?_)
    have hk : ¬ (old.getLsbD k = false ∧ new.getLsbD k = true) := fun hk => hraise ⟨k, hk⟩
    rw [hbit]
    simpa using hk
  · rintro ⟨k, hold, hnew⟩ hzero
    have hk := hbit k
    simp [hzero, hold, hnew] at hk

theorem not_raises_iff : ¬ Raises old new ↔ ∀ k, new.getLsbD k = true → old.getLsbD k = true := by
  simp only [Raises, not_exists]
  refine forall_congr' fun k => ?_
  cases old.getLsbD k <;> simp

/-- With a bit to raise, the mode is an erase (R201). -/
theorem classify_of_raises (h : Raises old new) :
    classify old new = if new = 0xFF then .eraseOnly else .eraseWrite := by
  rw [classify, if_pos (xor_and_ne_zero_iff_raises.2 h)]

/-- With no bit to raise, the mode is a write, or nothing is to be done (R201). -/
theorem classify_of_not_raises (h : ¬ Raises old new) :
    classify old new = if old = new then .none else .writeOnly := by
  rw [classify, if_neg (mt xor_and_ne_zero_iff_raises.1 h)]
  by_cases heq : old = new
  · simp [heq]
  · rw [if_pos (by simpa using heq), if_neg heq]

theorem Raises.ne (h : Raises old new) : old ≠ new := by
  obtain ⟨k, hold, hnew⟩ := h
  rintro rfl
  cases hold.symm.trans hnew

/-- No cycle starts exactly when the byte is stored already (R201). -/
theorem classify_eq_none_iff : classify old new = .none ↔ old = new := by
  by_cases hraise : Raises old new
  · rw [classify_of_raises hraise]
    split <;> simp [hraise.ne]
  · rw [classify_of_not_raises hraise]
    split <;> simp_all

end

/-- Settles O47: a bit to raise decides between the erases and the rest (`classify_of_raises`,
`classify_of_not_raises`). -/
theorem classifyByChangedBits : Obligations.ClassifyByChangedBits := by
  intro old new
  rw [classify_eq_none_iff, ← not_raises_iff]
  change _ ∧ _ ∧ (_ ↔ _ ∧ Raises old new) ∧ (_ ↔ _ ∧ Raises old new)
  by_cases hraise : Raises old new
  · rw [classify_of_raises hraise]
    split <;> simp_all
  · rw [classify_of_not_raises hraise]
    split <;> simp_all

/-! # The checksum (43_eeprom.md R210, R215) -/

theorem rotl8_injective : Function.Injective rotl8 := by
  intro c d h
  have hrotr : ∀ v : Byte, (rotl8 v >>> 1) ||| (rotl8 v <<< 7) = v := by decide
  rw [← hrotr c, h, hrotr d]

theorem foldl_cksStep_rotate_injective (l : List Byte) : Function.Injective fun c => l.foldl (cksStep .rotate) c := by
  induction l with
  | nil => exact fun _ _ h => h
  | cons d l ih => exact fun c c' h => rotl8_injective (add_right_cancel (ih h))

theorem cks_concat (m : CksumCombine) (l : List Byte) (d : Byte) : cks m (l ++ [d]) = cksStep m (cks m l) d := by
  rw [cks, List.foldl_append]
  rfl

/-- Settles O55: after the changed byte the sums differ, and each later step keeps them different
(`foldl_cksStep_rotate_injective`). -/
theorem rotateDetectsOneChangedByte : Obligations.RotateDetectsOneChangedByte := by
  refine ⟨by decide, fun l r d e hne hsum => hne ?_, by decide⟩
  rw [cks, cks, List.foldl_append, List.foldl_append] at hsum
  exact add_left_cancel (foldl_cksStep_rotate_injective r hsum)

end Sys2Proof.Machine

namespace Sys2Proof.Machine

/-! # The EE unit (43_eeprom.md R203 to R208) -/

/-! ## What the array holds, now and once it is idle -/

/-- The byte at an address of the array; one that is not listed is erased (R52). -/
def EeUnit.cell (x : EeUnit) (b : Nat) : Byte := (Mem.get? x.mem b).getD 0xFF

/-- The byte that an address holds once no program cycle is in flight: the cell of the cycle gets its value (R205). -/
def EeUnit.settled (x : EeUnit) (b : Nat) : Byte :=
  if x.busy = true ∧ b = x.pend.addr.toNat then x.pend.value else x.cell b

/-- The EE unit after EE_DONE (R208). -/
def EeUnit.done (x : EeUnit) : EeUnit :=
  if x.busy then
    ⟨Mem.write (some 0xFF) x.mem x.pend.addr.toNat (programmed x.pend.mode (x.cell x.pend.addr.toNat) x.pend.value),
      false, ⟨0, .none, 0⟩⟩
  else x

/-- The EE unit after `put(a, v)` (R204, R212). -/
def EeUnit.put (x : EeUnit) (a : Nat) (v : Byte) : EeUnit :=
  if classify (x.cell a) v = .none then x
  else { x with busy := true, pend := ⟨BitVec.ofNat 16 a, classify (x.cell a) v, v⟩ }

/-- The state after `put(a, v)` (R204, R212). -/
def State.put (a : Nat) (v : Byte) (s : State) : State :=
  if classify (s.ee.cell a) v = .none then s else s.startCycle a (classify (s.ee.cell a) v) (s.ee.cell a) v

section
variable {x : EeUnit} {a b : Nat} {v : Byte}

theorem getD_get?_write (m : Memory) (a b : Nat) (u v : Byte) :
    (Mem.get? (Mem.write (some u) m a v) b).getD u = if b = a then v else (Mem.get? m b).getD u := by
  have hwrite := Mem.get?_write (some u) m a b v
  rw [Option.or_some, Option.or_some] at hwrite
  split at hwrite <;> simp_all

theorem EeUnit.settled_of_idle (h : x.busy = false) (b : Nat) : x.settled b = x.cell b := by simp [EeUnit.settled, h]

theorem EeUnit.done_of_idle (h : x.busy = false) : x.done = x := by simp [EeUnit.done, h]

@[simp] theorem EeUnit.done_busy (x : EeUnit) : x.done.busy = false := by
  cases h : x.busy <;> simp [EeUnit.done, h]

@[simp] theorem EeUnit.put_mem (x : EeUnit) (a : Nat) (v : Byte) : (x.put a v).mem = x.mem := by
  unfold EeUnit.put; split <;> rfl

theorem EeUnit.put_of_stored (h : x.cell a = v) : x.put a v = x := if_pos (classify_eq_none_iff.2 h)

theorem EeUnit.done_cell_of_busy (h : x.busy = true) (b : Nat) :
    x.done.cell b = if b = x.pend.addr.toNat then programmed x.pend.mode (x.cell x.pend.addr.toNat) x.pend.value
      else x.cell b := by
  rw [EeUnit.done, if_pos h]
  exact getD_get?_write ..

/-- EE_DONE brings the array to what it was settled to hold, if the cycle leaves its value in its cell. -/
theorem EeUnit.done_settled
    (h : x.busy = true → programmed x.pend.mode (x.cell x.pend.addr.toNat) x.pend.value = x.pend.value) :
    x.done.settled = x.settled := by
  funext b
  rw [EeUnit.settled_of_idle x.done_busy]
  cases hb : x.busy with
  | false => rw [EeUnit.done_of_idle hb, EeUnit.settled_of_idle hb]
  | true =>
    rw [EeUnit.done_cell_of_busy hb, h hb]
    simp [EeUnit.settled, hb]

theorem EeUnit.put_of_unstored (h : x.cell a ≠ v) :
    x.put a v = { x with busy := true, pend := ⟨BitVec.ofNat 16 a, classify (x.cell a) v, v⟩ } :=
  if_neg (mt classify_eq_none_iff.1 h)

theorem EeUnit.put_busy_eq_false_iff (hidle : x.busy = false) : (x.put a v).busy = false ↔ x.cell a = v := by
  by_cases hstored : x.cell a = v
  · simp [EeUnit.put_of_stored, hstored, hidle]
  · simp [EeUnit.put_of_unstored, hstored]

/-- The stored-value law (R205): once idle again the address holds the byte, and no other has changed. -/
theorem EeUnit.put_settled (hidle : x.busy = false) (ha : a < 65536) (v : Byte) (b : Nat) :
    (x.put a v).settled b = if b = a then v else x.settled b := by
  have haddr : (BitVec.ofNat 16 a).toNat = a := (BitVec.toNat_ofNat ..).trans (Nat.mod_eq_of_lt ha)
  rw [x.settled_of_idle hidle]
  by_cases hstored : x.cell a = v
  · rw [EeUnit.put_of_stored hstored, EeUnit.settled_of_idle hidle]
    split
    · simp_all
    · rfl
  · rw [EeUnit.put_of_unstored hstored]
    simp [EeUnit.settled, haddr, EeUnit.cell]

end

section
variable (a : Nat) (v : Byte) (s : State)
@[simp] theorem State.put_ee : (s.put a v).ee = s.ee.put a v := by unfold State.put EeUnit.put; split <;> rfl
@[simp] theorem State.put_control : (s.put a v).control = s.control := by unfold State.put; split <;> rfl
@[simp] theorem State.put_cfg : (s.put a v).cfg = s.cfg := by unfold State.put; split <;> rfl
@[simp] theorem State.put_cur : (s.put a v).cur = s.cur := by unfold State.put; split <;> rfl
@[simp] theorem State.put_ip : (s.put a v).ip = s.ip := by unfold State.put; split <;> rfl
@[simp] theorem State.put_prog : (s.put a v).prog = s.prog := by unfold State.put; split <;> rfl
@[simp] theorem State.put_buf : (s.put a v).buf = s.buf := by unfold State.put; split <;> rfl
@[simp] theorem State.put_fifo : (s.put a v).fifo = s.fifo := by unfold State.put; split <;> rfl
@[simp] theorem State.put_draws : (s.put a v).draws = s.draws := by unfold State.put; split <;> rfl
end

/-! ## The shared operations, as equations -/

section
variable {i : Instr} {s t : State} {a b len : Nat} {v : Byte}

theorem peek_eemem (s : State) (b : Nat) : s.peek .eemem b = some (s.ee.cell b) := by
  rw [State.peek_eq]
  show (Mem.get? s.ee.mem b).or (some 0xFF) = some ((Mem.get? s.ee.mem b).getD 0xFF)
  cases Mem.get? s.ee.mem b <;> rfl

theorem readByte_eemem {k : Byte → State → Out} (hb : b < s.cfg.eeSize) :
    readByte .eemem b s k = k (s.ee.cell b) s := readByte_settled hb (peek_eemem s b)

theorem putByte_put {k : Mode → State → Out} (ha : a < s.cfg.eeSize) :
    putByte a v s k = k (classify (s.ee.cell a) v) (s.put a v) := by
  rw [putByte_eq ha (peek_eemem s a), State.put]
  split
  · rw [‹classify _ _ = _›]
  · rfl

theorem put_of_stored (h : s.ee.cell a = v) : s.put a v = s := if_pos (classify_eq_none_iff.2 h)

theorem put_of_mode (h : classify (s.ee.cell a) v ≠ .none) :
    s.put a v = s.startCycle a (classify (s.ee.cell a) v) (s.ee.cell a) v := if_neg h

theorem eeDone_eq (h : s.ee.busy = true → s.ee.pend.addr.toNat < s.cfg.eeSize) :
    eeDone s = .next (s.setEe s.ee.done) := by
  cases hb : s.ee.busy with
  | false =>
    rw [EeUnit.done_of_idle hb, eeDone, hb]
    rfl
  | true =>
    rw [eeDone, if_pos hb, readByte_eemem (h hb), writeByte_eq (sp := .eemem) (h hb), EeUnit.done, if_pos hb]
    rfl

theorem State.UnitsOk.eeDone_eq (hs : s.UnitsOk) : eeDone s = .next (s.setEe s.ee.done) := Machine.eeDone_eq hs.eeAddr

theorem State.UnitsOk.done_settled (hs : s.UnitsOk) : s.ee.done.settled = s.ee.settled :=
  EeUnit.done_settled fun hb => hs.eeValue hb _ (peek_eemem s _)

theorem whenIdle_idle {o : Out} (h : s.ee.busy = false) : whenIdle i s o = o := by simp [whenIdle, h]

theorem exec_of_unitHold (hi : allowed i s.cur = true) (h : s.unitHold i = true) : exec i s = .next (s.hold i) :=
  exec_of_holds (by simp [State.holds, hi, h])

theorem hold_of_main (hcur : s.cur = .main) (i : Instr) :
    s.hold i = { s with pend := s.pend.set .main (some ⟨encode i, s.stage⟩) } := by
  rw [← hcur]
  rfl

/-! ## EE_GET and EE_PUT (R203, R204) -/

theorem exec_eeGet_errRange (hcur : s.cur = .main) (ha : s.cfg.eeSize ≤ a) :
    exec (.eeGet a) s = .next (s.finish .errRange 0) := by
  simp [exec, execEeGet, onPort, allowed, inEeprom, hcur, ha.not_gt]

theorem exec_eePut_errRange (hcur : s.cur = .main) (ha : s.cfg.eeSize ≤ a) :
    exec (.eePut a v) s = .next (s.finish .errRange 0) := by
  simp [exec, execEePut, onPort, allowed, inEeprom, hcur, ha.not_gt]

theorem exec_eeGet_idle (hcur : s.cur = .main) (ha : a < s.cfg.eeSize) (hidle : s.ee.busy = false) :
    exec (.eeGet a) s = .next (s.finish .ok (zext16 (s.ee.cell a))) := by
  simp [exec, execEeGet, onPort, allowed, inEeprom, whenIdle, readByte_eemem, hcur, ha, hidle]

theorem exec_eePut_idle (hcur : s.cur = .main) (ha : a < s.cfg.eeSize) (hidle : s.ee.busy = false) :
    exec (.eePut a v) s = .next ((s.put a v).finish .ok (zext16 (classify (s.ee.cell a) v).code)) := by
  simp [exec, execEePut, onPort, allowed, inEeprom, whenIdle, putByte_put, hcur, ha, hidle]

/-- EE_PUT of a byte that is stored already (R204 b). -/
theorem exec_eePut_stored (hcur : s.cur = .main) (ha : a < s.cfg.eeSize) (hidle : s.ee.busy = false)
    (h : s.ee.cell a = v) : exec (.eePut a v) s = .next (s.finish .ok 0) := by
  rw [exec_eePut_idle hcur ha hidle, put_of_stored h, classify_eq_none_iff.2 h]
  rfl

/-! ## The blocks (R212, R213) -/

theorem exec_writeBlock_errRange (hcur : s.cur = .main) (ha : s.cfg.eeSize ≤ a + len) :
    exec (.eeWriteBlock a len) s = .next (s.finish .errRange 0) := by
  simp [exec, execEeWriteBlock, onPort, allowed, blockInEeprom, hcur, ha.not_gt]

theorem exec_readBlock_errRange (hcur : s.cur = .main) (ha : s.cfg.eeSize ≤ a + len) :
    exec (.eeReadBlock a len) s = .next (s.finish .errRange 0) := by
  simp [exec, execEeReadBlock, onPort, allowed, blockInEeprom, hcur, ha.not_gt]

/-- What one read of BUF[j] gives: its byte, or the free value of this draw (R53). -/
def State.bufRead (s : State) (j : Nat) : Byte := (Mem.get? s.buf j).getD (Config.freeByte s.draws)

/-- The state after one read of BUF[j]. -/
def State.drawn (j : Nat) (s : State) : State := s.setDraws (if s.bufWritten j then s.draws else s.draws + 1)

theorem exec_writeBlock_data (hcur : s.cur = .main) (hend : a + len < s.cfg.eeSize) (hlen : len < 256)
    (hidle : s.ee.busy = false) (hj : s.blockLoop.1 < len) :
    exec (.eeWriteBlock a len) s =
      .next (((s.drawn s.blockLoop.1).put (a + s.blockLoop.1) (s.bufRead s.blockLoop.1)).await (.eeWriteBlock a len)
        (.block (s.blockLoop.1 + 1) (cksStep s.cfg.cksum s.blockLoop.2 (s.bufRead s.blockLoop.1)))) := by
  have ha : a + s.blockLoop.1 < s.cfg.eeSize := by omega
  rw [exec, execEeWriteBlock, onPort_allowed (by simp [allowed, hcur]), if_neg (by simp [blockInEeprom, hend]),
    whenIdle_idle hidle, if_pos hj, readByte_buf_eq (hj.trans hlen)]
  exact putByte_put ha

theorem exec_writeBlock_trailer (hcur : s.cur = .main) (hend : a + len < s.cfg.eeSize)
    (hidle : s.ee.busy = false) (hj : len ≤ s.blockLoop.1) :
    exec (.eeWriteBlock a len) s =
      .next ((s.put (a + len) s.blockLoop.2).finish .ok (zext16 s.blockLoop.2)) := by
  rw [exec, execEeWriteBlock, onPort_allowed (by simp [allowed, hcur]), if_neg (by simp [blockInEeprom, hend]),
    whenIdle_idle hidle, if_neg hj.not_gt, putByte_put hend]

theorem exec_readBlock_data (hcur : s.cur = .main) (hend : a + len < s.cfg.eeSize) (hlen : len < 256)
    (hidle : s.ee.busy = false) (hj : s.blockLoop.1 < len) :
    exec (.eeReadBlock a len) s =
      .next ((s.setBuf (Mem.write none s.buf s.blockLoop.1 (s.ee.cell (a + s.blockLoop.1)))).await (.eeReadBlock a len)
        (.block (s.blockLoop.1 + 1) (cksStep s.cfg.cksum s.blockLoop.2 (s.ee.cell (a + s.blockLoop.1))))) := by
  have ha : a + s.blockLoop.1 < s.cfg.eeSize := by omega
  rw [exec, execEeReadBlock, onPort_allowed (by simp [allowed, hcur]), if_neg (by simp [blockInEeprom, hend]),
    whenIdle_idle hidle, if_pos hj, readByte_eemem ha]
  exact writeByte_eq (sp := .bufmem) (hj.trans hlen)

theorem exec_readBlock_trailer (hcur : s.cur = .main) (hend : a + len < s.cfg.eeSize)
    (hidle : s.ee.busy = false) (hj : len ≤ s.blockLoop.1) :
    exec (.eeReadBlock a len) s =
      .next (s.finish (if s.blockLoop.2 = s.ee.cell (a + len) then .ok else .cksumFail)
        ((zext16 (s.ee.cell (a + len)) <<< 8) ||| zext16 s.blockLoop.2)) := by
  rw [exec, execEeReadBlock, onPort_allowed (by simp [allowed, hcur]), if_neg (by simp [blockInEeprom, hend]),
    whenIdle_idle hidle, if_neg hj.not_gt, readByte_eemem hend]

end

end Sys2Proof.Machine

namespace Sys2Proof.Machine

/-! # EE_DONE and the schedule (43_eeprom.md R208; 70_reset_and_hazards.md R276) -/

section
variable {s t : State}

/-- A step takes the head of the schedule (assumption log 2). -/
theorem step_sched (h : step s = .next t) : t.sched = s.sched.tail := by
  rcases step_cases h with ⟨hs, h⟩ | ⟨rest, hs, h⟩ | ⟨p, rest, hs, h⟩
  · rw [(eeDone_idle h).2, hs]
    rfl
  · rw [(eeDone_idle h).2, hs]
    rfl
  · obtain ⟨progs, hstate, -⟩ := issue_state ((s.setSched rest).setCur p)
    rw [hs]
    rcases h with hidle | ⟨u, hu, rfl⟩ | ⟨i, u, hu, h⟩
    · rw [issue_idle_eq hidle]
      rfl
    · rw [hu] at hstate
      exact congrArg State.sched hstate
    · rw [hu] at hstate
      obtain ⟨-, -, hsched, -⟩ := (exec_does h).unitFrame.around
      exact hsched.trans (congrArg State.sched hstate)

theorem IsRun.sched {r : Nat → State} (h : IsRun r) (k n : Nat) : (r (k + n)).sched = (r k).sched.drop n := by
  induction n with
  | zero => rfl
  | succ n ih => rw [← Nat.add_assoc, step_sched (h (k + n)), ih, List.tail_drop]

/-- The schedule is finite and every step takes one entry of it, so it runs out. -/
theorem IsRun.weaklyFair {r : Nat → State} (h : IsRun r) : WeaklyFair r := fun k =>
  ⟨k + (r k).sched.length, Nat.le_add_right .., .inr (.inl (by rw [h.sched, List.drop_length]))⟩

theorem run_succ (h : step s = .next t) (k : Nat) :
    Sys2Proof.core.run (k + 1) s = Sys2Proof.core.run k t := by
  simp only [Host.Core.run]
  rw [show Sys2Proof.core.step s = .next t from h]

/-- One step after the schedule has run out, no cycle is in flight. -/
theorem run_idle (hs : s.Inv) :
    ∃ t, Sys2Proof.core.run (s.sched.length + 1) s = .next t ∧ t.ee.busy = false := by
  obtain ⟨t, ht⟩ := invariantStepsNeverStop s hs
  rw [run_succ ht]
  induction hsched : s.sched generalizing s t with
  | nil =>
    rw [step, hsched] at ht
    exact ⟨t, rfl, (eeDone_idle ht).1⟩
  | cons a rest ih =>
    obtain ⟨u, hu⟩ := invariantStepsNeverStop t (step_inv hs ht)
    rw [List.length_cons, run_succ hu]
    exact ih (step_inv hs ht) u hu (by rw [step_sched ht, hsched]; rfl)

/-- EE_DONE changes the cell of its cycle only. -/
theorem done_sameBytesBut (hb : s.ee.busy = true) :
    SameBytesBut (fun sp b => sp = .eemem ∧ b = s.ee.pend.addr.toNat) s (s.setEe s.ee.done) := by
  intro sp b hsp
  cases sp with
  | eemem =>
    have hne : b ≠ s.ee.pend.addr.toNat := fun h => hsp ⟨rfl, h⟩
    rw [peek_eemem, peek_eemem, State.setEe_ee, EeUnit.done_cell_of_busy hb, if_neg hne]
  | rxmem | txmem | bufmem => rfl

end

/-- Settles O49: the schedule runs out (`IsRun.weaklyFair`, `run_idle`), and the equation of EE_DONE. -/
theorem eeDoneTransition : Obligations.EeDoneTransition := by
  refine ⟨fun _ => IsRun.weaklyFair, fun _ => run_idle, fun s hs => ⟨rfl, fun hb => ?_, fun hb => ?_⟩⟩
  · rw [eeDone_eq hs.eeAddr, EeUnit.done_of_idle hb]
    rfl
  · refine ⟨_, _, peek_eemem s _, eeDone_eq hs.eeAddr, ?_, done_sameBytesBut hb, ?_⟩
    · rw [peek_eemem, State.setEe_ee, EeUnit.done_cell_of_busy hb, if_pos rfl]
      cases s.ee.pend.mode <;> rfl
    · rw [EeUnit.done, if_pos hb]
      rfl

/-! # The operations of the EE unit -/

/-- Settles O50: the range check comes first, and then the hold (`exec_of_unitHold`). -/
theorem rangeErrorThenHold : Obligations.RangeErrorThenHold := by
  refine ⟨fun s a len v hcur => ⟨fun ha => ?_, fun ha => ?_⟩, fun s i a len v hcur hb hi => ?_⟩
  · exact ⟨exec_eeGet_errRange hcur ha, exec_eePut_errRange hcur ha⟩
  · exact ⟨exec_writeBlock_errRange hcur ha, exec_readBlock_errRange hcur ha⟩
  · have hhold : allowed i s.cur = true ∧ s.unitHold i = true := by
      rcases hi with ⟨ha, rfl | rfl⟩ | ⟨ha, rfl | rfl⟩ <;>
        simp [allowed, State.unitHold, inEeprom, blockInEeprom, hcur, hb, ha]
    obtain ⟨hallowed, hunit⟩ := hhold
    rw [exec_of_unitHold hallowed hunit, hold_of_main hcur]

theorem encode_eeGet (a : BitVec 16) : encode (.eeGet a.toNat) = 0x41000000 ||| (a.setWidth 32 <<< 8) := by
  rw [encode, BitVec.ofNat_toNat, BitVec.setWidth_eq]
  rfl

theorem encode_eePut (a : BitVec 16) (v : Byte) :
    encode (.eePut a.toNat v) = 0x42000000 ||| (a.setWidth 32 <<< 8) ||| v.setWidth 32 := by
  rw [encode, BitVec.ofNat_toNat, BitVec.setWidth_eq, place_zero]
  rfl

/-- Settles O51: the words, the port table, and the case of each state. -/
theorem getAndPutTransitions : Obligations.GetAndPutTransitions := by
  refine ⟨fun a v => ⟨?_, ?_⟩, fun a v => ⟨fun p => by simp [allowed], fun s hcur ha => ?_, ?_, ?_⟩⟩
  · rw [← encode_eeGet, decode_encode (by simp [WellFormed, fitsAddr16, a.isLt])]
  · rw [← encode_eePut, decode_encode (by simp [WellFormed, fitsAddr16, a.isLt])]
  · exact ⟨exec_eeGet_errRange hcur ha, exec_eePut_errRange hcur ha⟩
  · obtain ⟨-, hhold⟩ := rangeErrorThenHold
    exact fun s i hi hcur ha hb => hhold s i a 0 v hcur hb (.inl ⟨ha, hi⟩)
  · refine fun s hcur ha hidle =>
      ⟨_, peek_eemem s a, exec_eeGet_idle hcur ha hidle, fun hmode =>
        exec_eePut_stored hcur ha hidle (classify_eq_none_iff.1 hmode), fun hmode => ?_⟩
    rw [exec_eePut_idle hcur ha hidle, put_of_mode hmode]
    rfl

/-! ## What EE_PUT stores (R205, R209) -/

section
variable {s t : State} {a : Nat} {v : Byte}

theorem eq_ones_of_eraseOnly {old new : Byte} (h : classify old new = .eraseOnly) : new = 0xFF := by
  obtain ⟨-, -, herase, -⟩ := classifyByChangedBits old new
  exact (herase.1 h).1

theorem no_bit_raised_of_writeOnly {old new : Byte} (h : classify old new = .writeOnly) :
    (old ^^^ new) &&& new = 0 ∧ old &&& new = new := by
  obtain ⟨-, hwrite, -⟩ := classifyByChangedBits old new
  have hraise := not_raises_iff.2 (hwrite.1 h).2
  have hvalue := programmed_classify old new
  rw [h] at hvalue
  exact ⟨by_contra fun hne => hraise (xor_and_ne_zero_iff_raises.1 hne), hvalue⟩

/-- The state that an EE_PUT leaves to EE_DONE (R204). -/
theorem eePut_next (hcur : s.cur = .main) (ha : a < s.cfg.eeSize) (hidle : s.ee.busy = false)
    (h : exec (.eePut a v) s = .next t) :
    t = (s.put a v).finish .ok (zext16 (classify (s.ee.cell a) v).code) := by
  rw [exec_eePut_idle hcur ha hidle] at h
  cases h
  rfl

/-- The stored-value law on the whole array: after EE_PUT and EE_DONE the address holds the byte, and no other byte has
changed. -/
theorem eePut_done_cell (hs : s.Inv) (hcur : s.cur = .main) (ha : a < s.cfg.eeSize) (hidle : s.ee.busy = false)
    (h : exec (.eePut a v) s = .next t) (b : Nat) :
    t.ee.done.cell b = if b = a then v else s.ee.cell b := by
  have ht := (exec_does h).unitsOk hs.unitsOk
  rw [← EeUnit.settled_of_idle t.ee.done_busy, ht.done_settled, eePut_next hcur ha hidle h, State.finish_ee,
    State.put_ee, EeUnit.put_settled hidle (ha.trans_le hs.cfg.eeSize.2), EeUnit.settled_of_idle hidle]

end

/-- Settles O48: a cycle that ends leaves the byte in its cell (`eePut_done_cell`). -/
theorem putStoresItsValue : Obligations.PutStoresItsValue := by
  refine ⟨fun _ _ => ⟨eq_ones_of_eraseOnly, no_bit_raised_of_writeOnly⟩,
    fun a v s t hs ha hcur hidle h => ?_⟩
  have hcell := eePut_done_cell hs hcur ha hidle h
  have hdone := ((exec_does h).unitsOk hs.unitsOk).eeDone_eq
  obtain rfl := eePut_next hcur ha hidle h
  refine ⟨fun hb => ?_, fun hb => ⟨_, hdone, EeUnit.done_busy _, ?_, ?_⟩⟩
  · have hstored : s.ee.cell a = v := by
      rw [← EeUnit.put_busy_eq_false_iff hidle, ← State.put_ee]
      exact hb
    rw [put_of_stored hstored, peek_eemem, hstored]
    exact ⟨rfl, sameBytes_of_mem fun sp => by cases sp <;> rfl⟩
  · rw [peek_eemem, State.setEe_ee, hcell, if_pos rfl]
  · intro sp b hsp
    cases sp with
    | eemem =>
      have hne : b ≠ a := fun hba => hsp ⟨rfl, hba⟩
      rw [peek_eemem, peek_eemem, State.setEe_ee, hcell, if_neg hne]
    | rxmem | txmem | bufmem => exact State.peek_congr (by simp [State.mem]) b

/-- Settles O52: EE_DONE has left the byte in its cell (`eePut_done_cell`), so the second put finds it stored. -/
theorem repeatedPutStartsNoCycle : Obligations.RepeatedPutStartsNoCycle := by
  intro a v s t u hs ha hcur hidle h hdone
  have hcell := eePut_done_cell hs hcur ha hidle h a
  rw [if_pos rfl] at hcell
  obtain rfl := eePut_next hcur ha hidle h
  cases (((exec_does h).unitsOk hs.unitsOk).eeDone_eq).symm.trans hdone
  refine ⟨?_, fun hstored => ?_, fun hstored => ?_⟩
  · exact exec_eePut_stored (by simpa using hcur) (by simpa using ha) (EeUnit.done_busy _) hcell
  · rw [peek_eemem] at hstored
    rw [put_of_stored (Option.some.inj hstored)]
    rfl
  · have hne : s.ee.cell a ≠ v := fun heq => hstored (by rw [peek_eemem, heq])
    rw [put_of_mode (mt classify_eq_none_iff.1 hne)]
    simp

/-! ## The transitions of the blocks (R212, R213) -/

/-- What `put` leaves of the EE unit and the logs, by the mode. -/
theorem put_cases (s : State) (a : Nat) (v : Byte) :
    (classify (s.ee.cell a) v = .none → (s.put a v).ee = s.ee ∧ (s.put a v).logs = s.logs) ∧
    (classify (s.ee.cell a) v ≠ .none →
      (s.put a v).ee = { s.ee with busy := true, pend := ⟨BitVec.ofNat 16 a, classify (s.ee.cell a) v, v⟩ } ∧
      (s.put a v).logs = { s.logs with
        eeLog := s.logs.eeLog ++ [⟨BitVec.ofNat 16 a, classify (s.ee.cell a) v, s.ee.cell a, v⟩] }) := by
  refine ⟨fun hmode => ?_, fun hmode => ?_⟩
  · rw [put_of_stored (classify_eq_none_iff.1 hmode)]
    exact ⟨rfl, rfl⟩
  · rw [put_of_mode hmode]
    exact ⟨rfl, rfl⟩

/-- Settles O53: the two transitions as equations, and the cases of `put`. -/
theorem writeBlockTransitions : Obligations.WriteBlockTransitions := by
  intro a len s hcur hend hlen hidle
  refine ⟨fun hj => ?_, fun hj => ?_⟩
  · refine ⟨_, _, peek_eemem s _, exec_writeBlock_data hcur hend hlen hidle hj, goesOn_await (by simp [State.drawn]),
      ?_, put_cases (s.drawn s.blockLoop.1) ..⟩
    rw [State.await_draws, State.put_draws]
    rfl
  · exact ⟨_, _, peek_eemem s _, exec_writeBlock_trailer hcur hend hidle hj, ended_finish (by simp), put_cases s ..⟩

/-- Settles O54: the two transitions as equations, and a read of BUF after a write. -/
theorem readBlockTransitions : Obligations.ReadBlockTransitions := by
  intro a len s hcur hend hlen hidle
  refine ⟨fun hj => ?_, fun hj => ⟨_, peek_eemem s _, exec_readBlock_trailer hcur hend hidle hj⟩⟩
  refine ⟨_, _, peek_eemem s _, exec_readBlock_data hcur hend hlen hidle hj, goesOn_await rfl, ?_, fun b hb => ?_, rfl,
    rfl⟩
  · exact (Mem.get?_write_none ..).trans (if_pos rfl)
  · exact (Mem.get?_write_none ..).trans (if_neg hb)

end Sys2Proof.Machine

namespace Sys2Proof.Machine

/-! # A record is read back as it was written (43_eeprom.md R214) -/

/-! ## Steps that leave MAIN and the record alone -/

/-- MAIN, BUF, the draws and what the array holds once idle are as before. -/
structure RecordKept (s t : State) : Prop extends MainKept s t where
  cfg : t.cfg = s.cfg
  buf : t.buf = s.buf
  draws : t.draws = s.draws
  settled : t.ee.settled = s.ee.settled

section
variable {i : Instr} {s t u : State} {p : Port}

theorem RecordKept.trans (h : RecordKept s t) (h' : RecordKept t u) : RecordKept s u where
  toMainKept := h.toMainKept.trans h'.toMainKept
  cfg := h'.cfg.trans h.cfg
  buf := h'.buf.trans h.buf
  draws := h'.draws.trans h.draws
  settled := h'.settled.trans h.settled

/-- Only MAIN may issue operations of the EE unit, and those that read or write BUF (R33). -/
theorem keeps_record_of_not_main (hi : allowed i p = true) (hp : p ≠ .main) :
    unitOf i ≠ .ee ∧ readsBuf i = false ∧ writesBuf i = false := by
  cases i with
  | i2cWriteReg | i2cReadReg | eeGet | eePut | eeWriteBlock | eeReadBlock | bufWrite | bufRead =>
    exact absurd (by simpa [allowed] using hi) hp
  | _ => exact ⟨nofun, rfl, rfl⟩

theorem exec_recordKept (hcur : s.cur ≠ .main) (h : exec i s = .next t) : RecordKept s t := by
  cases hi : allowed i s.cur with
  | true =>
    obtain ⟨hunit, hreads, hwrites⟩ := keeps_record_of_not_main hi hcur
    have hframe := (exec_does h).unitFrame
    exact ⟨exec_mainKept hcur h, hframe.cfg_eq, hframe.buf hwrites, hframe.draws hreads,
      congrArg EeUnit.settled (hframe.ee hunit).1⟩
  | false =>
    rw [exec_of_refused hi] at h
    cases h
    exact ⟨finish_mainKept hcur, rfl, rfl, rfl, rfl⟩

theorem eeDone_recordKept (hs : s.UnitsOk) (h : eeDone s = .next t) : RecordKept s t := by
  have hmain := eeDone_mainKept h
  rw [hs.eeDone_eq] at h
  cases h
  exact ⟨hmain, rfl, rfl, rfl, hs.done_settled⟩

/-- Issuing changes nothing but the program of the port (R31). -/
theorem issue_recordKept (hcur : s.cur ≠ .main) : RecordKept s s.issue.state := by
  obtain ⟨progs, hstate, -⟩ := issue_state s
  refine ⟨(issue_mainKept hcur).1, ?_, ?_, ?_, ?_⟩ <;> rw [hstate] <;> rfl

/-- MAIN takes a transition: of a word that is ILLEGAL, or of an operation. -/
def MainMoves (s t : State) : Prop :=
  ∃ rest, (∃ v, ((s.setSched rest).setCur .main).issue = .illegal v ∧ t = v.finish .errIllegal 0) ∨
    ∃ i v, ((s.setSched rest).setCur .main).issue = .run i v ∧ exec i v = .next t

/-- A step leaves MAIN and the record alone, or is a transition of MAIN. -/
theorem step_recordKept_or_mainMoves (hs : s.Inv) (h : step s = .next t) : RecordKept s t ∨ MainMoves s t := by
  rcases step_cases h with ⟨-, h⟩ | ⟨rest, -, h⟩ | ⟨p, rest, -, h⟩
  · exact .inl (eeDone_recordKept hs.unitsOk h)
  · exact .inl { eeDone_recordKept (s := s.setSched rest) { hs.unitsOk with } h with }
  have hport : RecordKept s ((s.setSched rest).setCur p) := ⟨⟨rfl, rfl, rfl, rfl, rfl⟩, rfl, rfl, rfl, rfl⟩
  rcases h with hidle | h
  · exact .inl (issue_idle_eq hidle ▸ hport)
  by_cases hp : p = .main
  · subst hp
    exact .inr ⟨rest, h⟩
  · have hcur := (issue_mainKept (s := (s.setSched rest).setCur p) hp).2
    refine .inl (hport.trans ((issue_recordKept hp).trans ?_))
    rcases h with ⟨v, hv, rfl⟩ | ⟨i, v, hv, h⟩ <;> rw [hv] at hcur ⊢
    · exact ⟨finish_mainKept (hcur.trans_ne hp), rfl, rfl, rfl, rfl⟩
    · exact exec_recordKept (hcur.trans_ne hp) h

theorem MainMoves.ends_or_pends (h : MainMoves s t) :
    t.ip.main = s.ip.main + 1 ∨ (t.ip.main = s.ip.main ∧ t.pend.main ≠ none) := by
  obtain ⟨rest, h⟩ := h
  obtain ⟨progs, hstate, -⟩ := issue_state ((s.setSched rest).setCur .main)
  rcases h with ⟨v, hv, rfl⟩ | ⟨i, v, hv, h⟩ <;> rw [hv] at hstate <;> cases hstate
  · exact .inl rfl
  · have hmove := exec_ends_or_pends rfl h
    exact hmove

end

/-! ## The word MAIN is at -/

/-- MAIN takes next the transition `st` of `i`, which it has in progress or is about to issue; the words `ws` follow. -/
def AtWord (i : Instr) (ws : List Word) (st : Stage) (t : State) : Prop :=
  (t.pend.main = none ∧ t.prog.main = encode i :: ws ∧ st = .start) ∨
    (t.pend.main = some ⟨encode i, st⟩ ∧ t.prog.main = ws)

section
variable {i : Instr} {ws : List Word} {st : Stage} {t u : State}

theorem AtWord.kept (h : AtWord i ws st t) (hkept : MainKept t u) : AtWord i ws st u := by
  rw [AtWord, hkept.pend, hkept.prog]
  exact h

/-- The state in which MAIN takes a transition, with the schedule and the programs then left. -/
def State.atMain (rest : List Agent) (progs : PerPort (List Word)) (t : State) : State :=
  ((t.setSched rest).setCur .main).setProg progs

/-- At a word of `i`, MAIN issues `i`. -/
theorem AtWord.issue (h : AtWord i ws st t) (hi : WellFormed i = true) (rest : List Agent) :
    ∃ progs, progs.main = ws ∧ (t.atMain rest progs).stage = st ∧
      ((t.setSched rest).setCur .main).issue = .run i (t.atMain rest progs) := by
  rcases h with ⟨hpend, hprog, rfl⟩ | ⟨hpend, hprog⟩
  · refine ⟨t.prog.set .main ws, rfl, by simp [State.atMain, State.stage, hpend], ?_⟩
    simp [State.atMain, State.issue, hpend, hprog, State.decoded_run (decode_encode hi)]
  · refine ⟨t.prog, hprog, by simp [State.atMain, State.stage, hpend], ?_⟩
    simp only [State.issue, State.setCur_pend, State.setSched_pend, State.setCur_cur, PerPort.get_main, hpend,
      State.decoded_run (decode_encode hi)]
    rfl

/-- A transition of MAIN at a word of `i` is one of `i`. -/
theorem AtWord.exec (h : AtWord i ws st t) (hi : WellFormed i = true) (hmoves : MainMoves t u) :
    ∃ rest progs, progs.main = ws ∧ (t.atMain rest progs).stage = st ∧
      Machine.exec i (t.atMain rest progs) = .next u := by
  obtain ⟨rest, hmoves⟩ := hmoves
  obtain ⟨progs, hprogs, hstage, hissue⟩ := h.issue hi rest
  refine ⟨rest, progs, hprogs, hstage, ?_⟩
  rcases hmoves with ⟨v, hillegal, -⟩ | ⟨j, v, hrun, h⟩
  · cases hissue.symm.trans hillegal
  · cases hissue.symm.trans hrun
    exact h

theorem atWord_await (hcur : t.cur = .main) (hprog : t.prog.main = ws) : AtWord i ws st (t.await i st) := by
  refine .inr ⟨?_, hprog⟩
  rw [State.await_pend, hcur]
  rfl

end

/-! ## The record in the array -/

/-- The bytes of the record at `a` once the array is idle: the first `n`. -/
def EeUnit.record (x : EeUnit) (a n : Nat) : List Byte := (List.range' a n).map x.settled

section
variable {x y : EeUnit} {a n : Nat} {v : Byte}

theorem EeUnit.record_succ (x : EeUnit) (a n : Nat) : x.record a (n + 1) = x.record a n ++ [x.settled (a + n)] := by
  simp [EeUnit.record, List.range'_concat]

theorem EeUnit.record_congr (h : y.settled = x.settled) (a n : Nat) : y.record a n = x.record a n := by
  rw [EeUnit.record, h, EeUnit.record]

/-- A byte put behind the first `n` leaves them as they were. -/
theorem EeUnit.put_record (hidle : x.busy = false) (ha : a + n < 65536) (v : Byte) :
    (x.put (a + n) v).record a n = x.record a n := by
  refine List.map_congr_left fun b hb => ?_
  obtain ⟨-, hb⟩ := List.mem_range'_1.1 hb
  rw [EeUnit.put_settled hidle ha, if_neg hb.ne]

theorem EeUnit.put_record_succ (hidle : x.busy = false) (ha : a + n < 65536) (v : Byte) :
    (x.put (a + n) v).record a (n + 1) = x.record a n ++ [v] := by
  rw [EeUnit.record_succ, EeUnit.put_record hidle ha, EeUnit.put_settled hidle ha, if_pos rfl]

theorem bufBytes_succ (s : State) (n : Nat) : s.bufBytes (n + 1) = s.bufBytes n ++ [Mem.get? s.buf n] := by
  simp [State.bufBytes, List.range_succ]

/-- A byte stored into BUF behind the first `n`. -/
theorem bufBytes_setBuf_succ (s : State) (n : Nat) (v : Byte) :
    (s.setBuf (Mem.write none s.buf n v)).bufBytes (n + 1) = s.bufBytes n ++ [some v] := by
  rw [bufBytes_succ, State.setBuf_buf, Mem.get?_write_none, if_pos rfl]
  congr 1
  refine List.map_congr_left fun b hb => ?_
  rw [State.setBuf_buf, Mem.get?_write_none, if_neg (List.mem_range.1 hb).ne]

end

/-- The two bytes of a result that holds one above the other (R213). -/
theorem extractLsb'_byte_above_byte (e c : Byte) :
    ((zext16 e <<< 8) ||| zext16 c).extractLsb' 0 8 = c ∧ ((zext16 e <<< 8) ||| zext16 c).extractLsb' 8 8 = e := by
  refine ⟨extractLsb'_eq_of_getLsbD fun k hk => ?_, extractLsb'_eq_of_getLsbD fun k hk => ?_⟩
  · have hk' : k < 16 := by omega
    simp [zext16, hk, hk']
  · have hk' : 8 + k < 16 ∧ k < 16 := by omega
    simp [zext16, hk, hk']

/-! ## From the first word's issue to the second word's result -/

/-- The loop index and running checksum that a block takes from its stage (`State.blockLoop`). -/
def Stage.loop : Stage → Nat × Byte
  | .block j c => (j, c)
  | _ => (0, 0x00)

theorem blockLoop_eq_loop (s : State) : s.blockLoop = s.stage.loop := by
  unfold State.blockLoop
  cases s.stage <;> rfl

/-- MAIN is at byte `j` of the block operation `i` on the record at `a`, with the checksum of the bytes before it. -/
def AtByte (i : Instr) (a j : Nat) (ws : List Word) (t : State) : Prop :=
  ∃ st, AtWord i ws st t ∧ st.loop = (j, cks t.cfg.cksum (t.ee.record a j))

/-- EE_WRITE_BLOCK has put the first `j` bytes that `s` was to give, and the others are still to be read from BUF. -/
structure Written (a len j : Nat) (s t : State) : Prop where
  ip : t.ip.main = s.ip.main
  cfg : t.cfg = s.cfg
  le : j ≤ len
  reads : s.bufReads len = t.ee.record a j ++ readsFrom (t.bufFrom j (len - j)) t.draws

/-- The record and its trailer are written, and EE_READ_BLOCK has copied the first `j` bytes into BUF. -/
structure Copied (a len j : Nat) (s t : State) : Prop where
  ip : t.ip.main = s.ip.main + 1
  cfg : t.cfg = s.cfg
  le : j ≤ len
  record : t.ee.record a len = s.bufReads len
  trailer : t.ee.settled (a + len) = cks s.cfg.cksum (s.bufReads len)
  buf : t.bufBytes j = (t.ee.record a j).map some

/-- Both words have finished; if no later one has been issued, the read has found the record. -/
structure ReadBack (len : Nat) (s t : State) : Prop where
  ip : s.ip.main + 2 ≤ t.ip.main
  result : t.ip.main = s.ip.main + 2 → t.pend.main = none →
    t.res.main = ⟨Status.ok.code, (zext16 (cks s.cfg.cksum (s.bufReads len)) <<< 8) |||
      zext16 (cks s.cfg.cksum (s.bufReads len))⟩ ∧ t.bufBytes len = (s.bufReads len).map some

/-- How far the two words have come. -/
inductive RoundTrip (a len : Nat) (ws : List Word) (s t : State) : Prop
  | writing (j : Nat) (hat : AtByte (.eeWriteBlock a len) a j (encode (.eeReadBlock a len) :: ws) t)
      (h : Written a len j s t)
  | reading (j : Nat) (hat : AtByte (.eeReadBlock a len) a j ws t) (h : Copied a len j s t)
  | done (h : ReadBack len s t)

section
variable {i : Instr} {a len j : Nat} {ws : List Word} {s t u : State}

theorem AtByte.kept (h : AtByte i a j ws t) (hkept : RecordKept t u) : AtByte i a j ws u := by
  obtain ⟨st, hat, hloop⟩ := h
  exact ⟨st, hat.kept hkept.toMainKept, by rw [hkept.cfg, EeUnit.record_congr hkept.settled, hloop]⟩

/-- A transition of MAIN at a byte of the block `i` is one of `i`, with that byte's index and checksum. -/
theorem AtByte.exec (h : AtByte i a j ws t) (hi : WellFormed i = true) (hmoves : MainMoves t u) :
    ∃ rest progs, progs.main = ws ∧
      (t.atMain rest progs).blockLoop = (j, cks t.cfg.cksum (t.ee.record a j)) ∧
      Machine.exec i (t.atMain rest progs) = .next u := by
  obtain ⟨st, hword, hloop⟩ := h
  obtain ⟨rest, progs, hprogs, hst, hexec⟩ := hword.exec hi hmoves
  exact ⟨rest, progs, hprogs, by rw [blockLoop_eq_loop, hst, hloop], hexec⟩

theorem bufBytes_congr (h : u.buf = t.buf) (n : Nat) : u.bufBytes n = t.bufBytes n := by
  rw [State.bufBytes, h, State.bufBytes]

theorem RoundTrip.kept (h : RoundTrip a len ws s t) (hkept : RecordKept t u) : RoundTrip a len ws s u := by
  have hrecord := EeUnit.record_congr hkept.settled a
  cases h with
  | writing j hat h =>
    refine .writing j (hat.kept hkept) ⟨hkept.ip.trans h.ip, hkept.cfg.trans h.cfg, h.le, ?_⟩
    rw [h.reads, hrecord, State.bufFrom, State.bufFrom, hkept.buf, hkept.draws]
  | reading j hat h =>
    refine .reading j (hat.kept hkept) ⟨hkept.ip.trans h.ip, hkept.cfg.trans h.cfg, h.le, ?_, ?_, ?_⟩
    · rw [hrecord, h.record]
    · rw [hkept.settled, h.trailer]
    · rw [hrecord, bufBytes_congr hkept.buf, h.buf]
  | done h =>
    refine .done ⟨by rw [hkept.ip]; exact h.ip, ?_⟩
    rw [hkept.ip, hkept.pend, hkept.res, bufBytes_congr hkept.buf]
    exact h.result

/-- Once both words have finished, what MAIN does next is a later word. -/
theorem ReadBack.step (h : ReadBack len s t) (hmoves : MainMoves t u) : ReadBack len s u := by
  have hlater := h.ip
  rcases hmoves.ends_or_pends with hip | ⟨hip, hpend⟩
  · exact ⟨by omega, fun _ => by omega⟩
  · exact ⟨by omega, fun _ hnone => absurd hnone hpend⟩

/-- A block operation is held while a program cycle is in flight, and stays at its byte. -/
theorem AtByte.hold (hcur : t.cur = .main) (hprog : t.prog.main = ws)
    (hloop : t.blockLoop = (j, cks t.cfg.cksum (t.ee.record a j))) : AtByte i a j ws (t.hold i) :=
  ⟨t.stage, atWord_await hcur hprog, (blockLoop_eq_loop t).symm.trans hloop⟩

/-- The next byte is read from BUF and put (R212). -/
theorem Written.data (h : Written a len j s t) (hj : j < len) (hidle : t.ee.busy = false) (ha : a + j < 65536)
    (st : Stage) : Written a len (j + 1) s (((t.drawn j).put (a + j) (t.bufRead j)).await i st) where
  ip := by simpa [State.drawn] using h.ip
  cfg := by simpa [State.drawn] using h.cfg
  le := hj
  reads := by
    have hrest : len - j = len - (j + 1) + 1 := by omega
    rw [h.reads, hrest, bufFrom_succ, readsFrom_cons, State.await_ee, State.put_ee,
      EeUnit.put_record_succ (x := (t.drawn j).ee) hidle ha, List.append_assoc, State.await_draws, State.put_draws]
    simp only [State.bufFrom, State.await_buf, State.put_buf]
    rfl

/-- The trailer is put (R212). -/
theorem Written.trailer (h : Written a len len s t) (hcur : t.cur = .main) (hidle : t.ee.busy = false)
    (ha : a + len < 65536) (st : Status) (d : Half) :
    Copied a len 0 s ((t.put (a + len) (cks t.cfg.cksum (t.ee.record a len))).finish st d) := by
  have hreads : s.bufReads len = t.ee.record a len := by
    rw [h.reads, Nat.sub_self]
    exact List.append_nil _
  refine ⟨?_, ?_, Nat.zero_le _, ?_, ?_, rfl⟩
  · simp [hcur, PerPort.set, h.ip]
  · simpa using h.cfg
  · rw [State.finish_ee, State.put_ee, EeUnit.put_record hidle ha, hreads]
  · rw [State.finish_ee, State.put_ee, EeUnit.put_settled hidle ha, if_pos rfl, hreads, h.cfg]

/-- The next byte is copied into BUF (R213). -/
theorem Copied.data (h : Copied a len j s t) (hj : j < len) (st : Stage) :
    Copied a len (j + 1) s ((t.setBuf (Mem.write none t.buf j (t.ee.settled (a + j)))).await i st) where
  ip := h.ip
  cfg := h.cfg
  le := hj
  record := h.record
  trailer := h.trailer
  buf := by
    have hbuf := bufBytes_setBuf_succ t j (t.ee.settled (a + j))
    rw [h.buf] at hbuf
    rw [State.await_ee, State.setBuf_ee, EeUnit.record_succ, List.map_append]
    exact hbuf

/-- The trailer is the sum of the bytes copied (R213). -/
theorem Copied.trailer_found (h : Copied a len len s t) (hcur : t.cur = .main) :
    ReadBack len s (t.finish
      (if cks t.cfg.cksum (t.ee.record a len) = t.ee.settled (a + len) then .ok else .cksumFail)
      ((zext16 (t.ee.settled (a + len)) <<< 8) ||| zext16 (cks t.cfg.cksum (t.ee.record a len)))) := by
  rw [h.trailer, h.cfg, h.record, if_pos rfl]
  refine ⟨?_, fun _ _ => ⟨?_, ?_⟩⟩
  · simp [hcur, PerPort.set, h.ip]
  · rw [State.finish_res, hcur]
    rfl
  · rw [← h.record]
    exact h.buf

section
variable (hcur : t.cur = .main) (hloop : t.blockLoop = (j, cks t.cfg.cksum (t.ee.record a j)))
  (hend : a + len < t.cfg.eeSize) (hlen : len < 256)
include hcur hloop hend hlen

/-- A transition of EE_WRITE_BLOCK holds, puts the next byte, or puts the trailer and ends (R212). -/
theorem Written.exec (hsize : t.cfg.eeSize ≤ 65536) (h : Written a len j s t)
    (hprog : t.prog.main = encode (.eeReadBlock a len) :: ws)
    (hexec : Machine.exec (.eeWriteBlock a len) t = .next u) : RoundTrip a len ws s u := by
  cases hidle : t.ee.busy with
  | true =>
    rw [exec_of_unitHold (by simp [allowed, hcur]) (by simp [State.unitHold, blockInEeprom, hend, hidle])] at hexec
    cases hexec
    exact .writing j (AtByte.hold hcur hprog hloop) { h with }
  | false =>
    obtain ⟨hindex, hsum⟩ := Prod.ext_iff.1 hloop
    have hle := h.le
    by_cases hj : j < len
    · rw [exec_writeBlock_data hcur hend hlen hidle (hindex ▸ hj), hindex, hsum] at hexec
      cases hexec
      refine .writing (j + 1) ⟨_, atWord_await ?_ ?_, ?_⟩ (h.data hj hidle (by omega) _)
      · simpa [State.drawn] using hcur
      · simpa [State.drawn] using hprog
      · rw [State.await_ee, State.put_ee, EeUnit.put_record_succ (x := (t.drawn j).ee) hidle (by omega), cks_concat,
          State.await_cfg, State.put_cfg]
        rfl
    · obtain rfl : j = len := by omega
      rw [exec_writeBlock_trailer hcur hend hidle (hindex ▸ le_rfl), hsum] at hexec
      cases hexec
      refine .reading 0 ⟨.start, .inl ⟨?_, by simpa using hprog, rfl⟩, rfl⟩ (h.trailer hcur hidle (by omega) _ _)
      rw [State.finish_pend, State.put_cur, hcur]
      rfl

/-- A transition of EE_READ_BLOCK holds, copies the next byte, or compares the trailer and ends (R213). -/
theorem Copied.exec (h : Copied a len j s t) (hprog : t.prog.main = ws)
    (hexec : Machine.exec (.eeReadBlock a len) t = .next u) : RoundTrip a len ws s u := by
  cases hidle : t.ee.busy with
  | true =>
    rw [exec_of_unitHold (by simp [allowed, hcur]) (by simp [State.unitHold, blockInEeprom, hend, hidle])] at hexec
    cases hexec
    exact .reading j (AtByte.hold hcur hprog hloop) { h with }
  | false =>
    obtain ⟨hindex, hsum⟩ := Prod.ext_iff.1 hloop
    have hle := h.le
    by_cases hj : j < len
    · rw [exec_readBlock_data hcur hend hlen hidle (hindex ▸ hj), hindex, hsum] at hexec
      rw [← EeUnit.settled_of_idle hidle] at hexec
      cases hexec
      refine .reading (j + 1) ⟨_, atWord_await hcur hprog, ?_⟩ (h.data hj _)
      rw [State.await_ee, State.setBuf_ee, EeUnit.record_succ, cks_concat]
      rfl
    · obtain rfl : j = len := by omega
      rw [exec_readBlock_trailer hcur hend hidle (hindex ▸ le_rfl), hsum] at hexec
      rw [← EeUnit.settled_of_idle hidle] at hexec
      cases hexec
      exact .done (h.trailer_found hcur)

end

/-- Every step takes the two words on, or leaves them and the record alone. -/
theorem RoundTrip.step (h : RoundTrip a len ws s t) (ht : t.Inv) (hend : a + len < s.cfg.eeSize) (hlen : len < 256)
    (hstep : Machine.step t = .next u) : RoundTrip a len ws s u := by
  obtain hkept | hmoves := step_recordKept_or_mainMoves ht hstep
  · exact h.kept hkept
  have hsize := ht.cfg.eeSize.2
  have hfits (hcfg : t.cfg = s.cfg) : (fitsAddr16 a && fitsByte len) = true := by
    have ha : a < 65536 := by rw [← hcfg] at hend; omega
    simp [fitsAddr16, fitsByte, hlen, ha]
  cases h with
  | writing j hat h =>
    obtain ⟨rest, progs, hprogs, hloop, hexec⟩ := hat.exec (hfits h.cfg) hmoves
    exact Written.exec (t := t.atMain rest progs) rfl hloop (h.cfg ▸ hend) hlen hsize { h with } hprogs hexec
  | reading j hat h =>
    obtain ⟨rest, progs, hprogs, hloop, hexec⟩ := hat.exec (hfits h.cfg) hmoves
    exact Copied.exec (t := t.atMain rest progs) rfl hloop (h.cfg ▸ hend) hlen { h with } hprogs hexec
  | done h => exact .done (h.step hmoves)

end

/-- Settles O56: the two words keep `RoundTrip` from step to step, and once both have finished it says that the read
has found the record. -/
theorem recordRoundTrip : Obligations.RecordRoundTrip := by
  intro a len k s t ws hs hend hlen hpend hprog hrun hnone hip
  have hstart : s.Inv ∧ RoundTrip a len ws s s :=
    ⟨hs, .writing 0 ⟨.start, .inl ⟨hpend, hprog, rfl⟩, rfl⟩ ⟨rfl, rfl, Nat.zero_le _, by
      rw [Nat.sub_zero, ← bufBytes_eq_bufFrom]
      rfl⟩⟩
  have hkeeps (u v : State) (hu : u.Inv ∧ RoundTrip a len ws s u) (hstep : Machine.step u = .next v) :
      v.Inv ∧ RoundTrip a len ws s v := by
    obtain ⟨huinv, hround⟩ := hu
    exact ⟨step_inv huinv hstep, hround.step huinv hend hlen hstep⟩
  obtain ⟨-, h⟩ := run_keeps hkeeps k hstart hrun
  cases h with
  | writing j _ h => exact absurd (h.ip.symm.trans hip) (by omega)
  | reading j _ h => exact absurd (h.ip.symm.trans hip) (by omega)
  | done h =>
    obtain ⟨hres, hbuf⟩ := h.result hip hnone
    rw [hres]
    exact ⟨rfl, hbuf, extractLsb'_byte_above_byte _ _⟩

end Sys2Proof.Machine

namespace Sys2Proof

/-! # The words of BUF (30_encoding.md R102, R103) -/

theorem encode_bufWrite (j d : BitVec 8) :
    encode (.bufWrite j.toNat d) = 0x51000000 ||| (j.setWidth 32 <<< 8) ||| d.setWidth 32 := by
  rw [encode, BitVec.ofNat_toNat, BitVec.setWidth_eq, place_zero]
  rfl

theorem encode_bufRead (j : BitVec 8) : encode (.bufRead j.toNat) = 0x52000000 ||| (j.setWidth 32 <<< 8) := by
  rw [encode, BitVec.ofNat_toNat, BitVec.setWidth_eq]
  rfl

/-- A number read from an 8-bit field fits that field (R103, R104). -/
theorem fitsByte_toNat (j : BitVec 8) : fitsByte j.toNat = true := decide_eq_true j.isLt

end Sys2Proof

namespace Sys2Proof.Machine

/-! # The CTRL and BUF units (44_control.md) -/

section
variable {s : State} {j : Nat}

/-- BUF_WRITE lists its byte (R235). -/
theorem exec_bufWrite (d : Byte) (hj : j < 256) (hcur : s.cur = .main) :
    exec (.bufWrite j d) s = .next ((s.setBuf (Mem.write none s.buf j d)).finish .ok 0) := by
  rw [exec, execBufWrite, onPort_allowed (by simp [allowed, hcur]), writeByte_eq hj]
  rfl

/-- BUF_READ of a written byte (R236). -/
theorem exec_bufRead_written {v : Byte} (hj : j < 256) (hcur : s.cur = .main) (hv : Mem.get? s.buf j = some v) :
    exec (.bufRead j) s = .next (s.finish .ok (v.setWidth 16)) := by
  rw [exec, execBufRead, onPort_allowed (by simp [allowed, hcur]), readByte_settled hj (s.peek_buf j ▸ hv)]
  rfl

/-- BUF_READ of an unwritten byte draws its value (R53, R236). -/
theorem exec_bufRead_unwritten (hj : j < 256) (hcur : s.cur = .main) (hw : s.bufWritten j = false) :
    exec (.bufRead j) s =
      .next ((s.setDraws (s.draws + 1)).finish .ok ((Config.freeByte s.draws).setWidth 16)) := by
  have hnone : Mem.get? s.buf j = none := by simpa [State.bufWritten] using hw
  rw [exec, execBufRead, onPort_allowed (by simp [allowed, hcur]), readByte_free hj (s.peek_buf j ▸ hnone)]
  rfl

end

/-! ## Settled: O57, O60 -/

/-- Settles O57: the words, the port table, and the transition of each operation. -/
theorem nopAndBufferTransitions : Obligations.NopAndBufferTransitions := by
  refine ⟨⟨decode_encode (i := .nop) rfl, by decide, fun p => rfl, fun s => ?_⟩, fun j d => ⟨?_, ?_⟩,
    fun j d hj => ⟨fun p => by simp [allowed], fun s hcur => ⟨?_, ?_, ?_⟩⟩⟩
  · exact onPort_allowed (i := .nop) (s := s) rfl
  · rw [← encode_bufWrite, decode_encode (i := .bufWrite j.toNat d) (fitsByte_toNat j)]
  · rw [← encode_bufRead, decode_encode (i := .bufRead j.toNat) (fitsByte_toNat j)]
  · have hbuf (b : Nat) : Mem.get? (Mem.write none s.buf j d) b = if b = j then some d else Mem.get? s.buf b :=
      Mem.get?_write_none s.buf j b d
    refine ⟨_, exec_bufWrite d hj hcur, ended_finish rfl, ?_, hbuf, rfl, rfl, rfl, rfl, rfl⟩
    simp [State.bufWritten, hbuf]
  · exact fun v => exec_bufRead_written hj hcur
  · exact exec_bufRead_unwritten hj hcur

/-- Settles O60: the port check passes, and the transition is the model's. -/
theorem controllerReset : Obligations.ControllerReset :=
  ⟨decode_encode (i := .ctrlReset) rfl, fun p => by simp [allowed],
    fun s hcur => onPort_allowed (i := .ctrlReset) (by simp [allowed, hcur])⟩

/-! # The CSR map (10_state.md R55, R56) -/

/-! ## The fields of a CSR put together from parts -/

section
variable {n m lo pos : Nat}

/-- A field reads back the value placed in it. -/
theorem zext16_shiftLeft_field_same (v : BitVec n) (h : lo + n ≤ 16) : (zext16 v <<< lo).extractLsb' lo n = v :=
  extractLsb'_eq_of_getLsbD fun k hk => by
    have hwidth : lo + k < 16 ∧ k < 16 := by omega
    simp [zext16, hwidth]

/-- A value puts nothing into a field above it or below it. -/
theorem zext16_shiftLeft_field_apart (v : BitVec n) (h : lo + n ≤ pos ∨ pos + m ≤ lo) :
    (zext16 v <<< lo).extractLsb' pos m = 0 :=
  extractLsb'_eq_of_getLsbD fun k hk => by
    rcases h with h | h
    · simp [zext16, BitVec.getLsbD_of_ge v (pos + k - lo) (by omega)]
    · have hbelow : pos + k < lo := by omega
      simp [hbelow]

theorem zext16_field_same (v : BitVec n) (h : n ≤ 16) : (zext16 v).extractLsb' 0 n = v := by
  simpa using zext16_shiftLeft_field_same (lo := 0) v (by omega)

theorem zext16_field_above (v : BitVec n) (h : n ≤ pos) : (zext16 v).extractLsb' pos m = 0 := by
  simpa using zext16_shiftLeft_field_apart (lo := 0) v (.inl (by omega))

/-- A single bit puts nothing into a field above it or below it. -/
theorem bitAt_field_apart (b : Bool) (hlo : lo < 16) (h : lo < pos ∨ pos + m ≤ lo) :
    (bitAt b lo).extractLsb' pos m = 0 :=
  extractLsb'_eq_of_getLsbD fun k hk => by
    have hbit : pos + k ≠ lo := by omega
    simp [getLsbD_bitAt hlo, hbit]

/-- A value has no bit above its width. -/
theorem getLsbD_zext16_above (v : BitVec n) (h : n ≤ pos) : (zext16 v).getLsbD pos = false := by
  simp [zext16, BitVec.getLsbD_of_ge v pos h]

end

/-! ## The CSRs of several fields -/

section
variable (s : State)

theorem csr_fc_fields :
    (csr s 0x06).extractLsb' 0 2 = s.fifo.fc.code ∧ (csr s 0x06).getLsbD 2 = s.cfg.fcEnable ∧
      (csr s 0x06).extractLsb' 3 13 = 0 := by
  simp (disch := decide) [-BitVec.getLsbD_eq_getElem, csr, BitVec.extractLsb'_or, zext16_field_same, zext16_field_above,
    bitAt_field_apart, getLsbD_zext16_above, getLsbD_bitAt]

/-- The bits of STATUS are the level outputs (`levelOutputsAreStatusBits`). -/
theorem csr_status_fields :
    (csr s 0x07).getLsbD 0 = s.fifo.rxOvf ∧ (csr s 0x07).getLsbD 1 = s.ee.busy ∧
      (csr s 0x07).getLsbD 2 = decide (s.flag.alarm ≠ 0) ∧
      (csr s 0x07).getLsbD 3 = decide (s.flag.exec ≠ 0 ∨ s.flag.pending = true) ∧
      (csr s 0x07).getLsbD 4 = decide (s.fifo.rx.head ≠ s.fifo.rx.tail) ∧
      (csr s 0x07).getLsbD 5 =
        decide (s.fifo.tx.head ≠ s.fifo.tx.tail ∨ s.fifo.fc = .sendXoff ∨ s.fifo.fc = .sendXon) ∧
      (csr s 0x07).extractLsb' 6 10 = 0 := by
  obtain ⟨hrxOvf, hbusy, halarm, hevent, hrxne, htxp, hrxOvf', hbusy', halarm', hevent', -, hrxne', htxp'⟩ :=
    levelOutputsAreStatusBits s
  have hempty (u : Queue) : u.isEmpty = false ↔ u.head ≠ u.tail := by simp [Queue.isEmpty]
  refine ⟨hrxOvf.symm, hbusy.symm, ?_, ?_, ?_, ?_, extractLsb'_eq_of_getLsbD fun k hk => ?_⟩
  · rw [← halarm, Bool.eq_iff_iff, halarm', decide_eq_true_iff]
  · rw [← hevent, Bool.eq_iff_iff, hevent', decide_eq_true_iff]
  · rw [← hrxne, Bool.eq_iff_iff, hrxne', decide_eq_true_iff]
    exact hempty s.fifo.rx
  · rw [← htxp, Bool.eq_iff_iff, htxp', decide_eq_true_iff]
    exact or_congr_left (hempty s.fifo.tx)
  · have hbit : (csr s 0x07).getLsbD (6 + k) = s.outputs.bits.getLsbD (6 + k) := rfl
    rw [hbit, LevelOutputs.getLsbD_bits]
    simp [show ∀ l < 6, 6 + k ≠ l by omega]

theorem csr_i2cState_fields :
    (csr s 0x0A).extractLsb' 0 3 = s.i2c.phase.code ∧ (csr s 0x0A).getLsbD 3 = decide (s.i2c.dir = .read) ∧
      (csr s 0x0A).getLsbD 4 = s.i2c.nak ∧ (csr s 0x0A).extractLsb' 5 7 = s.i2c.addr ∧
      (csr s 0x0A).extractLsb' 12 4 = 0 := by
  have hdir : dirBit s.i2c.dir = decide (s.i2c.dir = .read) := by cases s.i2c.dir <;> rfl
  rw [← hdir]
  simp (disch := decide) [-BitVec.getLsbD_eq_getElem, csr, I2cUnit.stateBits, BitVec.extractLsb'_or,
    zext16_field_same, zext16_field_above, zext16_shiftLeft_field_same, zext16_shiftLeft_field_apart,
    bitAt_field_apart, getLsbD_zext16_above, getLsbD_bitAt]

theorem csr_eePend_fields :
    (csr s 0x10).extractLsb' 0 2 = s.ee.pend.mode.code ∧ (csr s 0x10).extractLsb' 2 6 = 0 ∧
      (csr s 0x10).extractLsb' 8 8 = s.ee.pend.value := by
  simp (disch := decide) [csr, BitVec.extractLsb'_or, zext16_field_same, zext16_field_above,
    zext16_shiftLeft_field_same, zext16_shiftLeft_field_apart]

end

/-! ## Settled: O58 -/

/-- The map ends at index 0x10 (R56, R231). -/
theorem exec_csrRead (j : Nat) (s : State) :
    exec (.csrRead j) s = .next (if j ≤ 0x10 then s.finish .ok (csr s j) else s.finish .errArg 0) := by
  rw [exec, execCsrRead, onPort_allowed rfl]
  by_cases hj : j ≤ 0x10
  · simp [csrIndexKnown, hj]
  · simp [csrIndexKnown, hj]

/-- Settles O58: the word, the index check (`exec_csrRead`), and the fields of each CSR; the numbers fit their CSR under
the invariant. -/
theorem csrReadShowsTheMap : Obligations.CsrReadShowsTheMap := by
  refine ⟨fun j => decode_of_operand (fitsByte_toNat j) (by rw [encode, BitVec.ofNat_toNat, BitVec.setWidth_eq]),
    fun j => ⟨fun p => rfl, fun s => ⟨fun hj => ?_, fun hj => ?_⟩⟩, fun s hs => ?_⟩
  · rw [exec_csrRead, if_neg (by omega)]
  · rw [exec_csrRead, if_pos hj]
  obtain ⟨-, hcRx⟩ := hs.cfg.cRx
  obtain ⟨-, hcTx⟩ := hs.cfg.cTx
  obtain ⟨-, heeSize⟩ := hs.cfg.eeSize
  have hrx := Queue.count_lt hs.rxPointers
  have htx := Queue.count_lt hs.txPointers
  have hptr (x : Byte) : (zext16 x).toNat = x.toNat := BitVec.toNat_setWidth_of_le (by decide)
  have hnat {n : Nat} (hn : n < 65536) : (BitVec.ofNat 16 n).toNat = n := by
    rw [BitVec.toNat_ofNat, Nat.mod_eq_of_lt hn]
  exact ⟨hptr _, hptr _, hnat (hrx.trans (by omega)), hptr _, hptr _, hnat (htx.trans (by omega)), csr_fc_fields s,
    csr_status_fields s, ⟨zext16_field_same _ (by decide), zext16_field_above _ (by decide)⟩,
    alarmData_fields s.flag, csr_i2cState_fields s,
    ⟨zext16_field_same _ (by decide), zext16_field_above _ (by decide)⟩, hnat (by omega), hnat (by omega),
    hnat (by omega), rfl, csr_eePend_fields s⟩

end Sys2Proof.Machine

namespace Sys2Proof.Machine

/-! # Error statuses change nothing else (60_exceptions.md R251, R256)

`exec_errorAlone` walks each operation once: it either still goes on, ends with a status that may come with effects, or
fails one of its checks and ends at once. -/

/-- The statuses that change nothing but the result of their port (R251). -/
def Status.changesNothing : Status → Bool
  | .i2cSeq | .errRange | .errArg | .errIllegal => true
  | .ok | .empty | .dropped | .aborted | .intercepted | .i2cFail | .cksumFail => false

/-- What one transition leaves: the operation is still in progress, it has ended with a status that may come with
effects, or a check of R256 has failed and `finish` is all that happened. -/
inductive ErrorAlone (s : State) : State → Prop
  | inProgress {t : State} (hip : t.ip = s.ip) : ErrorAlone s t
  | outcome {t : State} {st : Status} {d : Half} (hst : st.changesNothing = false) (hend : Ended s t st d) :
      ErrorAlone s t
  | error (st : Status) : ErrorAlone s (s.finish st 0)

theorem Status.code_injective : Function.Injective Status.code := by
  intro st st'
  cases st <;> cases st' <;> decide

section
variable {s t u : State} {i : Instr}

theorem ErrorAlone.eq_finish (h : ErrorAlone s t) (hip : t.ip.get s.cur = s.ip.get s.cur + 1) {st : Status}
    (hst : st.changesNothing = true) (hres : (t.res.get s.cur).status = st.code) : t = s.finish st 0 := by
  cases h with
  | inProgress hsame => rw [hsame] at hip; omega
  | outcome hst' hend =>
    obtain ⟨hres', -, -⟩ := hend
    rw [hres', PerPort.get_set_same] at hres
    rw [Status.code_injective hres, hst] at hst'
    cases hst'
  | error st' =>
    have hcode : st'.code = st.code := by simpa using hres
    rw [Status.code_injective hcode]

/-! ## The shared operations -/

theorem hold_errorAlone : ErrorAlone s (s.hold i) := .inProgress rfl

theorem finish_errorAlone {st : Status} {d : Half} (hst : st.changesNothing = false) (hu : u.control = s.control)
    (h : Host.Outcome.next (φ := Fault) (ρ := Refusal) (u.finish st d) = .next t) : ErrorAlone s t := by
  cases h; exact .outcome hst (ended_finish hu)

theorem await_errorAlone {st : Stage} (hu : u.control = s.control)
    (h : Host.Outcome.next (φ := Fault) (ρ := Refusal) (u.await i st) = .next t) : ErrorAlone s t := by
  obtain ⟨-, -, hip, -, -⟩ := State.control_eq_iff.1 hu
  cases h; exact .inProgress hip

theorem error_errorAlone {st : Status}
    (h : Host.Outcome.next (φ := Fault) (ρ := Refusal) (s.finish st 0) = .next t) : ErrorAlone s t := by
  cases h; exact .error st

@[simp] theorem State.pushed_control (q : QueueId) (d : Byte) (s : State) : (s.pushed q d).control = s.control :=
  s.setQueue_control _ q

theorem putByte_control {a : Nat} {v : Byte} {k : Mode → State → Out} (h : putByte a v s k = .next t) :
    ∃ m u, u.control = s.control ∧ k m u = .next t := by
  obtain ⟨-, old, -, ⟨-, h⟩ | ⟨-, h⟩⟩ := putByte_next h
  · exact ⟨_, s, rfl, h⟩
  · exact ⟨_, _, s.startCycle_control a _ old v, h⟩

/-- A bus phase that goes on by whether its answer is the good one (R185, R186). -/
theorem phase_errorAlone {α : Type} [DecidableEq α] {sel : BusAnswer → Option α} {good : α}
    {phase : α → State → State} {f g : State → Out} (hphase : ∀ r u, (phase r u).control = u.control)
    (hf : ∀ u, u.control = s.control → f u = .next t → ErrorAlone s t)
    (hg : ∀ u, u.control = s.control → g u = .next t → ErrorAlone s t)
    (h : onAnswer sel i s (fun r u => if r = good then f (phase r u) else g (phase r u)) = .next t) :
    ErrorAlone s t := by
  obtain ⟨r, -, h⟩ | ⟨-, rfl⟩ := onAnswer_next h
  · split at h
    · exact hf _ (by simp [hphase]) h
    · exact hg _ (by simp [hphase]) h
  · exact hold_errorAlone

section
variable {a : BitVec 7} {rw : Dir} {d : Byte} {f g : State → Out}
  (hf : ∀ u, u.control = s.control → f u = .next t → ErrorAlone s t)
  (hg : ∀ u, u.control = s.control → g u = .next t → ErrorAlone s t)
include hf hg

theorem busStart_errorAlone (h : busStart i a rw s f g = .next t) : ErrorAlone s t :=
  phase_errorAlone (fun r u => u.startPhase_control a rw r) hf hg h

theorem busAddr_errorAlone (h : busAddr i a rw s f g = .next t) : ErrorAlone s t :=
  phase_errorAlone (fun r u => u.addrPhase_control a rw r) hf hg h

theorem busWrite_errorAlone (h : busWrite i d s f g = .next t) : ErrorAlone s t :=
  phase_errorAlone (fun r u => u.writePhase_control d r) hf hg h

/-- The first transition of an I2C composite (R172, R180, R181). -/
theorem composeFirst_errorAlone
    (h : (if !s.i2c.mayCompose then .next (s.finish .i2cSeq 0) else busStart i a rw s f g) = .next t) :
    ErrorAlone s t := by
  split at h
  · exact error_errorAlone h
  · exact busStart_errorAlone hf hg h

end

theorem busStop_errorAlone {k : State → Out} (hk : ∀ u, u.control = s.control → k u = .next t → ErrorAlone s t)
    (h : busStop i s k = .next t) : ErrorAlone s t := by
  obtain ⟨-, -, h⟩ | ⟨-, -, rfl⟩ | ⟨-, h⟩ := busStop_next h
  · exact hk _ (by simp) h
  · exact hold_errorAlone
  · exact hk s rfl h

/-! ## One operation at a time -/

/-! ### CTRL -/

theorem execCsrRead_errorAlone {j : Nat} (hi : allowed (.csrRead j) s.cur = true) (h : execCsrRead j s = .next t) :
    ErrorAlone s t := by
  rw [execCsrRead, onPort_allowed hi] at h
  split at h
  · exact error_errorAlone h
  · exact finish_errorAlone rfl rfl h

/-! ### FIFO: no check but the port's -/

theorem execFifoPushWait_errorAlone {q : QueueId} {d : Byte} (hi : allowed (.fifoPushWait q d) s.cur = true)
    (h : execFifoPushWait q d s = .next t) : ErrorAlone s t := by
  rw [execFifoPushWait, onPort_allowed hi] at h
  split at h
  · obtain ⟨-, h⟩ := enqueue_pushed h
    exact finish_errorAlone rfl (by simp) h
  · split at h
    · exact finish_errorAlone rfl rfl h
    · cases h; exact hold_errorAlone

theorem execFifoPushDrop_errorAlone {q : QueueId} {d : Byte} (hi : allowed (.fifoPushDrop q d) s.cur = true)
    (h : execFifoPushDrop q d s = .next t) : ErrorAlone s t := by
  rw [execFifoPushDrop, onPort_allowed hi] at h
  split at h
  · obtain ⟨-, h⟩ := enqueue_pushed h
    exact finish_errorAlone rfl (by simp) h
  · exact finish_errorAlone rfl (by simp) h

theorem execFifoPop_errorAlone {q : QueueId} (hi : allowed (.fifoPop q) s.cur = true)
    (h : execFifoPop q s = .next t) : ErrorAlone s t := by
  rw [execFifoPop, onPort_allowed hi] at h
  split at h
  · exact finish_errorAlone rfl (by simp) h
  · obtain ⟨-, d, -, h⟩ := dequeue_next h
    exact finish_errorAlone rfl (by simp) h

theorem execRxIngress_errorAlone {d : Byte} (hi : allowed (.rxIngress d) s.cur = true)
    (h : execRxIngress d s = .next t) : ErrorAlone s t := by
  rw [execRxIngress, onPort_allowed hi] at h
  split at h
  · exact finish_errorAlone rfl (by simp) h
  · split at h
    · obtain ⟨-, h⟩ := enqueue_pushed h
      exact finish_errorAlone rfl (by simp) h
    · exact finish_errorAlone rfl (by simp) h

theorem execTxEgress_errorAlone (hi : allowed .txEgress s.cur = true) (h : execTxEgress s = .next t) :
    ErrorAlone s t := by
  rw [execTxEgress, onPort_allowed hi] at h
  split at h
  · exact finish_errorAlone rfl (by simp) h
  · split at h
    · exact finish_errorAlone rfl (by simp) h
    · split at h
      · obtain ⟨-, d, -, h⟩ := dequeue_next h
        exact finish_errorAlone rfl (by simp) h
      · exact finish_errorAlone rfl rfl h

/-! ### I2C: the phase check of R172, and COUNT 0 of I2C_READ_REG -/

/-- I2C_START and I2C_RESTART, as one transition or two (R173, R174, R185). -/
theorem startOp_errorAlone {a : BitVec 7} {rw : Dir} (h : startOp i a rw s = .next t) : ErrorAlone s t := by
  unfold startOp at h
  split at h
  · exact busAddr_errorAlone (fun _ => finish_errorAlone rfl) (fun _ => finish_errorAlone rfl) h
  · split at h
    · obtain rfl | ⟨r, -, -, rfl⟩ | ⟨q, -, -, rfl⟩ := startWhole_next h
      · exact hold_errorAlone
      · exact finish_errorAlone rfl (by simp) rfl
      · exact finish_errorAlone (by split <;> rfl) (by simp) rfl
    · exact busStart_errorAlone (fun _ => await_errorAlone) (fun _ => finish_errorAlone rfl) h

theorem execI2cWrite_errorAlone {d : Byte} (hi : allowed (.i2cWrite d) s.cur = true)
    (h : execI2cWrite d s = .next t) : ErrorAlone s t := by
  rw [execI2cWrite, onPort_allowed hi] at h
  split at h
  · exact error_errorAlone h
  · exact busWrite_errorAlone (fun _ => finish_errorAlone rfl) (fun _ => finish_errorAlone rfl) h

/-- The body that I2C_READ_ACK and I2C_READ_NACK share (R176, R177). -/
theorem readByteOp_errorAlone {m : ReadReply}
    (h : (if !s.i2c.mayRead then .next (s.finish .i2cSeq 0)
      else busRead i m s fun b t => .next (t.finish .ok (zext16 b))) = .next t) : ErrorAlone s t := by
  split at h
  · exact error_errorAlone h
  · obtain ⟨b, -, h⟩ | ⟨-, rfl⟩ := busRead_next h
    · exact finish_errorAlone rfl (by simp) h
    · exact hold_errorAlone

theorem execI2cWriteReg_errorAlone {a : BitVec 7} {reg : Byte} {n : Nat}
    (hi : allowed (.i2cWriteReg a reg n) s.cur = true) (h : execI2cWriteReg a reg n s = .next t) :
    ErrorAlone s t := by
  rw [execI2cWriteReg, onPort_allowed hi] at h
  cases hs : s.stage with rw [hs] at h
  | addr => exact busAddr_errorAlone (fun _ => await_errorAlone) (fun _ => await_errorAlone) h
  | reg => exact busWrite_errorAlone (fun _ => await_errorAlone) (fun _ => await_errorAlone) h
  | data j =>
    dsimp only at h
    split at h
    · obtain ⟨r, -, h⟩ | ⟨-, rfl⟩ := onAnswer_next h
      · obtain ⟨d, u, ⟨hu, -⟩, h⟩ := readByte_unlogged h
        exact await_errorAlone (by simp [hu]) h
      · exact hold_errorAlone
    · exact busStop_errorAlone (fun _ => finish_errorAlone rfl) h
  | abort => exact busStop_errorAlone (fun _ => finish_errorAlone rfl) h
  | _ => exact composeFirst_errorAlone (fun _ => await_errorAlone) (fun _ => await_errorAlone) h

theorem execI2cReadReg_errorAlone {a : BitVec 7} {reg : Byte} {n : Nat}
    (hi : allowed (.i2cReadReg a reg n) s.cur = true) (h : execI2cReadReg a reg n s = .next t) : ErrorAlone s t := by
  rw [execI2cReadReg, onPort_allowed hi] at h
  split at h
  · exact error_errorAlone h
  cases hs : s.stage with rw [hs] at h
  | addr => exact busAddr_errorAlone (fun _ => await_errorAlone) (fun _ => await_errorAlone) h
  | reg => exact busWrite_errorAlone (fun _ => await_errorAlone) (fun _ => await_errorAlone) h
  | restart => exact busStart_errorAlone (fun _ => await_errorAlone) (fun _ => await_errorAlone) h
  | raddr => exact busAddr_errorAlone (fun _ => await_errorAlone) (fun _ => await_errorAlone) h
  | data j =>
    dsimp only at h
    split at h
    · obtain ⟨b, -, h⟩ | ⟨-, rfl⟩ := busRead_next h
      · obtain ⟨u, ⟨hu, -⟩, h⟩ := writeByte_unlogged h
        exact await_errorAlone hu h
      · exact hold_errorAlone
    · refine busStop_errorAlone (fun u hu h => ?_) h
      obtain ⟨d, v, ⟨hv, -⟩, h⟩ := readByte_unlogged h
      exact finish_errorAlone rfl (hv.trans hu) h
  | abort =>
    refine busStop_errorAlone (fun u hu h => ?_) h
    obtain ⟨-, h⟩ := zeroBuf_next h
    exact finish_errorAlone rfl ((u.setMem_control _ .bufmem).trans hu) h
  | _ => exact composeFirst_errorAlone (fun _ => await_errorAlone) (fun _ => await_errorAlone) h

/-! ### EE: the range check of R219, before the hold -/

theorem execEeGet_errorAlone {a : Nat} (hi : allowed (.eeGet a) s.cur = true) (h : execEeGet a s = .next t) :
    ErrorAlone s t := by
  rw [execEeGet, onPort_allowed hi] at h
  split at h
  · exact error_errorAlone h
  · obtain ⟨-, rfl⟩ | ⟨-, h⟩ := whenIdle_next h
    · exact hold_errorAlone
    · obtain ⟨d, u, ⟨hu, -⟩, h⟩ := readByte_unlogged h
      exact finish_errorAlone rfl hu h

theorem execEePut_errorAlone {a : Nat} {v : Byte} (hi : allowed (.eePut a v) s.cur = true)
    (h : execEePut a v s = .next t) : ErrorAlone s t := by
  rw [execEePut, onPort_allowed hi] at h
  split at h
  · exact error_errorAlone h
  · obtain ⟨-, rfl⟩ | ⟨-, h⟩ := whenIdle_next h
    · exact hold_errorAlone
    · obtain ⟨m, u, hu, h⟩ := putByte_control h
      exact finish_errorAlone rfl hu h

theorem execEeWriteBlock_errorAlone {a len : Nat} (hi : allowed (.eeWriteBlock a len) s.cur = true)
    (h : execEeWriteBlock a len s = .next t) : ErrorAlone s t := by
  rw [execEeWriteBlock, onPort_allowed hi] at h
  split at h
  · exact error_errorAlone h
  obtain ⟨-, rfl⟩ | ⟨-, h⟩ := whenIdle_next h
  · exact hold_errorAlone
  split at h
  · obtain ⟨d, u, ⟨hu, -⟩, h⟩ := readByte_unlogged h
    obtain ⟨m, v, hv, h⟩ := putByte_control h
    exact await_errorAlone (hv.trans hu) h
  · obtain ⟨m, u, hu, h⟩ := putByte_control h
    exact finish_errorAlone rfl hu h

theorem execEeReadBlock_errorAlone {a len : Nat} (hi : allowed (.eeReadBlock a len) s.cur = true)
    (h : execEeReadBlock a len s = .next t) : ErrorAlone s t := by
  rw [execEeReadBlock, onPort_allowed hi] at h
  split at h
  · exact error_errorAlone h
  obtain ⟨-, rfl⟩ | ⟨-, h⟩ := whenIdle_next h
  · exact hold_errorAlone
  split at h
  · obtain ⟨d, u, ⟨hu, -⟩, h⟩ := readByte_unlogged h
    obtain ⟨v, ⟨hv, -⟩, h⟩ := writeByte_unlogged h
    exact await_errorAlone (hv.trans hu) h
  · obtain ⟨d, u, ⟨hu, -⟩, h⟩ := readByte_unlogged h
    exact finish_errorAlone (by split <;> rfl) hu h

/-! ### All operations -/

theorem exec_errorAlone (h : exec i s = .next t) : ErrorAlone s t := by
  cases hi : allowed i s.cur with
  | false => exact error_errorAlone ((exec_of_refused hi).symm.trans h)
  | true =>
    cases i with
    | nop => exact finish_errorAlone rfl rfl (body_of_onPort hi h)
    | csrRead j => exact execCsrRead_errorAlone hi h
    | ctrlReset => exact finish_errorAlone rfl s.controllerReset_control (body_of_onPort hi h)
    | fifoPushWait q d => exact execFifoPushWait_errorAlone hi h
    | fifoPushDrop q d => exact execFifoPushDrop_errorAlone hi h
    | fifoPop q => exact execFifoPop_errorAlone hi h
    | fifoCount q => exact finish_errorAlone rfl rfl (body_of_onPort hi h)
    | rxIngress d => exact execRxIngress_errorAlone hi h
    | txEgress => exact execTxEgress_errorAlone hi h
    | execRaise m => exact finish_errorAlone rfl (s.setFlag_control _) (body_of_onPort hi h)
    | execClear m => exact finish_errorAlone rfl (s.setFlag_control _) (body_of_onPort hi h)
    | execRead => exact finish_errorAlone rfl rfl (body_of_onPort hi h)
    | alarmRaise m => exact finish_errorAlone rfl (s.setFlag_control _) (body_of_onPort hi h)
    | alarmClear => exact finish_errorAlone rfl (s.setFlag_control _) (body_of_onPort hi h)
    | alarmRead => exact finish_errorAlone rfl rfl (body_of_onPort hi h)
    | dispatchPeek => exact finish_errorAlone rfl rfl (body_of_onPort hi h)
    | dispatchTake => exact finish_errorAlone rfl (s.setFlag_control _) (body_of_onPort hi h)
    | i2cStart a rw => exact startOp_errorAlone (body_of_onPort hi h)
    | i2cRestart a rw => exact startOp_errorAlone (body_of_onPort hi h)
    | i2cWrite d => exact execI2cWrite_errorAlone hi h
    | i2cReadAck => exact readByteOp_errorAlone (body_of_onPort hi h)
    | i2cReadNack => exact readByteOp_errorAlone (body_of_onPort hi h)
    | i2cStop => exact busStop_errorAlone (fun _ => finish_errorAlone rfl) (body_of_onPort hi h)
    | i2cWriteReg a reg n => exact execI2cWriteReg_errorAlone hi h
    | i2cReadReg a reg n => exact execI2cReadReg_errorAlone hi h
    | eeGet a => exact execEeGet_errorAlone hi h
    | eePut a v => exact execEePut_errorAlone hi h
    | eeWriteBlock a len => exact execEeWriteBlock_errorAlone hi h
    | eeReadBlock a len => exact execEeReadBlock_errorAlone hi h
    | bufWrite j d =>
      obtain ⟨u, ⟨hu, -⟩, h⟩ := writeByte_unlogged (body_of_onPort hi h)
      exact finish_errorAlone rfl hu h
    | bufRead j =>
      obtain ⟨d, u, ⟨hu, -⟩, h⟩ := readByte_unlogged (body_of_onPort hi h)
      exact finish_errorAlone rfl hu h

end

/-! ## Settled: O17 -/

/-- Settles O17: a transition that ends with one of the four statuses is a failed check (`exec_errorAlone`), since no
other status has its code. -/
theorem errorStatusChangesNothingElse : Obligations.ErrorStatusChangesNothingElse := by
  intro i s t h hip st hst hres
  have hchecks : st.changesNothing = true := by rcases hst with rfl | rfl | rfl | rfl <;> rfl
  exact (exec_errorAlone h).eq_finish hip hchecks hres

end Sys2Proof.Machine


/-! # What power-on reset leaves (10_state.md R60; 70_reset_and_hazards.md R270) -/

namespace Sys2Proof.Machine

/-- The row of R60 that every port shares: no result yet, no operation in progress, and no word finished. -/
theorem State.por_get (c : Params) (p : Port) :
    (State.por c).res.get p = ⟨0x00, 0x0000⟩ ∧ (State.por c).pend.get p = none ∧ (State.por c).ip.get p = 0 :=
  ⟨PerPort.get_const p _, PerPort.get_const p _, PerPort.get_const p _⟩

/-- Settles O12: the ports share one value (`State.por_get`), EEA is not enabled because no program cycle is in flight,
no BUF byte is written because BUF lists none, and every other part is the one its record is set to. -/
theorem powerOnValues : Obligations.PowerOnValues := by
  intro c
  have heea : (State.por c).enabled .eea = false := show (State.por c).ee.busy = false from rfl
  have hbuf (i : Nat) : (State.por c).bufWritten i = false := show (Mem.get? [] i).isSome = false from rfl
  exact ⟨State.por_get c, rfl, rfl, rfl, rfl, rfl, rfl, rfl, rfl, rfl, heea, hbuf, rfl, rfl⟩

end Sys2Proof.Machine
